-- ==== Sys2Proof/Word.lean ====
section
/-! DEFINITION. The word types of the CAS block (00_scope.md R6: every quantity is unsigned, the unit is the byte). -/

namespace Sys2Proof

/-- One byte: a register of the register file, the operand `din`, the pointer `OFFSET` (R6, R11, R21). -/
abbrev Byte := BitVec 8

/-- The 16-bit raw conversion result on the port `adc_raw` (R45, R127). -/
abbrev RawResult := BitVec 16

/-- The 11-bit event word `ev[2:0] ++ din[7:0]` (R46). -/
abbrev EventWord := BitVec 11

end Sys2Proof
end

