-- ==== Sys2Proof/Config.lean ====
section
/-! DEFINITION. The parameters of the block (00_scope.md R5) and the free values of the model.

A parameter is fixed for the life of the block and no operation changes it (R10, R175). The step function's form leaves no
argument for it, so `Machine.State` carries a `Config` that no operation writes: a statement about every state is then a
statement about every configuration (log entry 1).

A free value is an `opaque` constant: nothing in Lean evaluates it or proves anything of it. Each is applied to the counter
`freeCount` of the state, which the step advances, so that each use is a fresh value (log entry 3). -/

namespace Sys2Proof

/-- The legal values of the parameter `N` (R5, R57): the type holds no other, which is how the model refuses any other
cycle length (93_implementation_defined.md U8). -/
inductive CycleLength
  /-- an 8-step cycle -/
  | eight
  /-- a 16-step cycle, the default -/
  | sixteen
  deriving DecidableEq, Repr

/-- The parameter `N`, ticks per emulated second (R5). -/
def CycleLength.ticks : CycleLength → Nat
  | .eight => 8
  | .sixteen => 16

/-- The legal values of `AIE_MODE_BIT` (R5). -/
inductive ModeBit
  /-- bit 6 -/
  | six
  /-- bit 7, the default -/
  | seven
  deriving DecidableEq, Repr

/-- The bit index that `AIE_MODE_BIT` names (R5, R52). -/
def ModeBit.index : ModeBit → Nat
  | .six => 6
  | .seven => 7

/-- The parameter `DED_GATE`: which stored bit gates the dedicated outputs (R5, R112). -/
inductive DedGate
  /-- `R[28].DED`, the default -/
  | cfg
  /-- `R[29].MODE` -/
  | aie
  /-- both bits -/
  | both
  /-- either bit -/
  | either
  deriving DecidableEq, Repr

/-- The parameter `FG_ORDER`: how FG_STEP picks among several pending actions (R5, R71). -/
inductive FgOrder
  /-- lowest index first, the default -/
  | priority
  /-- any pending action -/
  | any
  deriving DecidableEq, Repr

/-- The parameters of the block (R5). -/
structure Config where
  /-- `N` -/
  cycle : CycleLength
  /-- `DIAG_EN` -/
  diagEn : Bool
  /-- `CFG_DED_BIT` -/
  dedBit : Fin 8
  /-- `CFG_CONV_BIT` -/
  convBit : Fin 8
  /-- `CFG_RDY_BIT` -/
  rdyBit : Fin 8
  /-- `AIE_MODE_BIT` -/
  modeBit : ModeBit
  /-- `DED_GATE` -/
  dedGate : DedGate
  /-- `DOW_OOR_MASK` -/
  dowOorMask : Byte
  /-- `FG_ORDER` -/
  fgOrder : FgOrder
  deriving DecidableEq, Repr

/-- `N` as a number. -/
def Config.ticks (c : Config) : Nat := c.cycle.ticks

/-- The default parameters (R5). -/
def Config.default : Config where
  cycle := .sixteen
  diagEn := false
  dedBit := 0
  convBit := 1
  rdyBit := 2
  modeBit := .seven
  dedGate := .cfg
  dowOorMask := 0x00
  fgOrder := .priority

/-- The n-th free bit: `LEAP` computed from a year that is not valid BCD (R95, U3), and `LEAP` after an ACT_TIME_INC outside
its domain (R98, U2). -/
opaque Config.freeBit : Nat → Bool

/-- The n-th free byte: a calendar field after an ACT_TIME_INC that met a field outside its domain (R98, U2). -/
opaque Config.freeByte : Nat → Byte

/-- The n-th free raw result: `adc_raw` where the environment does not constrain it (U11, R62 "don't-care"). -/
opaque Config.freeRaw : Nat → RawResult

/-- The n-th free choice: which pending action FG_STEP takes with `FG_ORDER = ANY` (R71, U6). -/
opaque Config.freeChoice : Nat → Nat

end Sys2Proof
end

