-- ==== Sys2Proof/Syntax.lean ====
section
/-! DEFINITION. The instructions of the CAS block: one constructor per row of opcode_table.json (30_encoding.md R64).

The block has no instruction stream (R1). Its instructions are the eight events that its environment applies (format EV, R47),
and the lines of the tables inside it: the phase lines of TICK (format PH16, R56), the nine actions of FG_STEP (format AF,
R58), the eight classes of BUS_WRITE (format BUSW, R59) and the four classes of BUS_READ (format BUSR, R60). -/

namespace Sys2Proof

/-- The rows of opcode_table.json. -/
inductive Instr
  /-- EV 000, `NOP`: no event (R47, R61) -/
  | nop
  /-- EV 001, `TICK`: one periodic tick (R65) -/
  | tick
  /-- EV 010, `ADC`: operation ADC_DONE (R68) -/
  | adc
  /-- EV 011, `FG`: operation FG_STEP (R70) -/
  | fg
  /-- EV 100, `SETOFF b`: operation BUS_SET_OFFSET (R135) -/
  | setoff (b : Byte)
  /-- EV 101, `WR b`: operation BUS_WRITE (R136) -/
  | wr (b : Byte)
  /-- EV 110, `RD`: operation BUS_READ (R146) -/
  | rd
  /-- EV 111, `RESET` (R175) -/
  | reset
  /-- PH16 k = 2, `PH.ALARM_INT` (R56, R65) -/
  | phAlarmInt
  /-- PH16 k = 4, `PH.DIAG` -/
  | phDiag
  /-- PH16 k = 6, `PH.ALARM_RST` -/
  | phAlarmRst
  /-- PH16 k = 8, `PH.TOGGLE_MID` -/
  | phToggleMid
  /-- PH16 k = 10, `PH.TEMP_ASSERT` -/
  | phTempAssert
  /-- PH16 k = 12, `PH.TIME_INC` -/
  | phTimeInc
  /-- PH16 k = 14, `PH.TEMP_DEASSERT` -/
  | phTempDeassert
  /-- PH16 k = 16, `PH.TOGGLE_END` -/
  | phToggleEnd
  /-- AF 0, `ACT_ALARM_INT` (R111) -/
  | actAlarmInt
  /-- AF 1, `ACT_DIAG` (R121) -/
  | actDiag
  /-- AF 2, `ACT_ALARM_RST` (R113) -/
  | actAlarmRst
  /-- AF 3, `ACT_TOGGLE` (R120) -/
  | actToggle
  /-- AF 4, `ACT_TEMP_ASSERT` (R124) -/
  | actTempAssert
  /-- AF 5, `ACT_TIME_INC` (R82) -/
  | actTimeInc
  /-- AF 6, `ACT_TEMP_DEASSERT` (R125) -/
  | actTempDeassert
  /-- AF 7, `ACT_CONV_DONE` (R127) -/
  | actConvDone
  /-- AF (8), `CONV_START` (R126) -/
  | convStart
  /-- BUSW `OFFSET` 0 to 5, `WR.TIME` (R137) -/
  | wrTime (b : Byte)
  /-- BUSW `OFFSET` 6 to 7, `WR.YEAR` (R138) -/
  | wrYear (b : Byte)
  /-- BUSW `OFFSET` 8 to 25, `WR.ALARM` (R139) -/
  | wrAlarm (b : Byte)
  /-- BUSW `OFFSET` 26 to 27, `WR.TEMP` (R140) -/
  | wrTemp (b : Byte)
  /-- BUSW `OFFSET` 28, `WR.CFG` (R141) -/
  | wrCfg (b : Byte)
  /-- BUSW `OFFSET` 29, `WR.AIE` (R142) -/
  | wrAie (b : Byte)
  /-- BUSW `OFFSET` 30, `WR.AIF` (R143) -/
  | wrAif (b : Byte)
  /-- BUSW `OFFSET` 31 to 255, `WR.OOR` (R144) -/
  | wrOor (b : Byte)
  /-- BUSR `OFFSET` 0 to 25 and 28 to 30, `RD.PLAIN` (R147) -/
  | rdPlain
  /-- BUSR `OFFSET` 26, `RD.TEMPH` (R148) -/
  | rdTemph
  /-- BUSR `OFFSET` 27, `RD.TEMPL` (R149) -/
  | rdTempl
  /-- BUSR `OFFSET` 31 to 255, `RD.OOR` (R150) -/
  | rdOor
  deriving DecidableEq, Repr

end Sys2Proof
end

