-- ==== Sys2Proof/WellFormed.lean ====
section
/-! DEFINITION. What a well-formed instruction and a well-formed configuration are. -/

namespace Sys2Proof

/-- An instruction is well formed as a request of the environment when it is one of the eight events of the event port
(30_encoding.md R47). The other rows are lines of tables inside the block, which no event word names (R56 to R60). -/
def Instr.wf : Instr → Bool
  | .nop | .tick | .adc | .fg | .setoff _ | .wr _ | .rd | .reset => true
  | .phAlarmInt | .phDiag | .phAlarmRst | .phToggleMid => false
  | .phTempAssert | .phTimeInc | .phTempDeassert | .phToggleEnd => false
  | .actAlarmInt | .actDiag | .actAlarmRst | .actToggle | .actTempAssert => false
  | .actTimeInc | .actTempDeassert | .actConvDone | .convStart => false
  | .wrTime _ | .wrYear _ | .wrAlarm _ | .wrTemp _ => false
  | .wrCfg _ | .wrAie _ | .wrAif _ | .wrOor _ => false
  | .rdPlain | .rdTemph | .rdTempl | .rdOor => false

/-- A configuration is legal when the three CFG bit indices are distinct (00_scope.md R5). Every other legality condition of
R5 is carried by the types of `Config`. -/
def Config.wf (c : Config) : Bool :=
  c.dedBit != c.convBit && c.dedBit != c.rdyBit && c.convBit != c.rdyBit

end Sys2Proof
end

