-- ==== Sys2Proof/Decode.lean ====
section
/-! DEFINITION. The decode tables of 30_encoding.md, and the encoders beside them.

`decode` reads an event word (R46, R47): every one of the 2048 words is an event, none is illegal. `decodeRow` reads a key of
the table opcode_table.json in any of its five formats (R64), and rejects by name the keys that no line has. -/

namespace Sys2Proof

/-! ### Event words -/

/-- The event word `ev ++ din` (R46). -/
def eventWord (ev : BitVec 3) (din : Byte) : EventWord := ev ++ din

/-- The operand byte `din`, bits 7 to 0 of the event word (R46). -/
def eventDin (w : EventWord) : Byte := w.extractLsb' 0 8

/-- The event an event word selects: bits 10 to 8 are `ev`, and an event without an operand accepts any `din` (R46, R47). -/
def decode (w : EventWord) : Instr :=
  match w.getLsbD 10, w.getLsbD 9, w.getLsbD 8 with
  | false, false, false => .nop
  | false, false, true  => .tick
  | false, true,  false => .adc
  | false, true,  true  => .fg
  | true,  false, false => .setoff (eventDin w)
  | true,  false, true  => .wr (eventDin w)
  | true,  true,  false => .rd
  | true,  true,  true  => .reset

/-- The canonical event word of an instruction (R46: `din = 0x00` where it is ignored). A row inside the block is reached by
the event word of the operation it is a line of: TICK, FG_STEP, BUS_WRITE or BUS_READ. -/
def encode : Instr → EventWord
  | .nop => eventWord 0b000 0x00
  | .tick => eventWord 0b001 0x00
  | .adc => eventWord 0b010 0x00
  | .fg => eventWord 0b011 0x00
  | .setoff b => eventWord 0b100 b
  | .wr b => eventWord 0b101 b
  | .rd => eventWord 0b110 0x00
  | .reset => eventWord 0b111 0x00
  | .phAlarmInt | .phDiag | .phAlarmRst | .phToggleMid => eventWord 0b001 0x00
  | .phTempAssert | .phTimeInc | .phTempDeassert | .phToggleEnd => eventWord 0b001 0x00
  | .actAlarmInt | .actDiag | .actAlarmRst | .actToggle | .actTempAssert => eventWord 0b011 0x00
  | .actTimeInc | .actTempDeassert | .actConvDone | .convStart => eventWord 0b011 0x00
  | .wrTime b | .wrYear b | .wrAlarm b | .wrTemp b => eventWord 0b101 b
  | .wrCfg b | .wrAie b | .wrAif b | .wrOor b => eventWord 0b101 b
  | .rdPlain | .rdTemph | .rdTempl | .rdOor => eventWord 0b110 0x00

/-! ### Keys of the table, in the five formats of R64 -/

/-- A key of opcode_table.json. -/
inductive RowKey
  /-- format EV: an event word -/
  | ev (w : EventWord)
  /-- format PH16: the phase number `k` of a tick on the 16-step scale -/
  | ph16 (k : BitVec 5)
  /-- format AF: the flag index that FG_STEP consumes, 8 for CONV_START -/
  | af (index : BitVec 4)
  /-- format BUSW: `OFFSET` before the operation, and the data byte -/
  | busw (offset : Byte) (b : Byte)
  /-- format BUSR: `OFFSET` before the operation -/
  | busr (offset : Byte)
  deriving DecidableEq, Repr

/-- Why a key or a word is rejected. -/
inductive DecodeError
  /-- no phase of this number sets a flag (R56: odd `k`), or no tick has it (`k` is 1 to 16) -/
  | noPhaseLine
  /-- no action has this index (R58: 0 to 8) -/
  | noAction
  /-- a bit above bit 10 is set: not an event word (R46) -/
  | notAnEventWord
  deriving DecidableEq, Repr

/-- The phase lines (R56). For `N = 8` the tick with `PHASE = p - 1` has `k = 2 * p` (R57). -/
def decodePhase (k : Nat) : Except DecodeError Instr :=
  match k with
  | 2 => .ok .phAlarmInt
  | 4 => .ok .phDiag
  | 6 => .ok .phAlarmRst
  | 8 => .ok .phToggleMid
  | 10 => .ok .phTempAssert
  | 12 => .ok .phTimeInc
  | 14 => .ok .phTempDeassert
  | 16 => .ok .phToggleEnd
  | _ => .error .noPhaseLine

/-- The actions by flag index (R58). -/
def decodeAction (index : Nat) : Except DecodeError Instr :=
  match index with
  | 0 => .ok .actAlarmInt
  | 1 => .ok .actDiag
  | 2 => .ok .actAlarmRst
  | 3 => .ok .actToggle
  | 4 => .ok .actTempAssert
  | 5 => .ok .actTimeInc
  | 6 => .ok .actTempDeassert
  | 7 => .ok .actConvDone
  | 8 => .ok .convStart
  | _ => .error .noAction

/-- The class of a BUS_WRITE by `OFFSET` before the operation (R59). -/
def decodeBusWrite (offset : Byte) (b : Byte) : Instr :=
  if offset ≤ 5 then .wrTime b
  else if offset ≤ 7 then .wrYear b
  else if offset ≤ 25 then .wrAlarm b
  else if offset ≤ 27 then .wrTemp b
  else if offset = 28 then .wrCfg b
  else if offset = 29 then .wrAie b
  else if offset = 30 then .wrAif b
  else .wrOor b

/-- The class of a BUS_READ by `OFFSET` before the operation (R60). -/
def decodeBusRead (offset : Byte) : Instr :=
  if offset ≤ 25 then .rdPlain
  else if offset = 26 then .rdTemph
  else if offset = 27 then .rdTempl
  else if offset ≤ 30 then .rdPlain
  else .rdOor

/-- The row a key names, or the reason that no row has it (R56 to R60, R64). -/
def decodeRow : RowKey → Except DecodeError Instr
  | .ev w => .ok (decode w)
  | .ph16 k => decodePhase k.toNat
  | .af index => decodeAction index.toNat
  | .busw offset b => .ok (decodeBusWrite offset b)
  | .busr offset => .ok (decodeBusRead offset)

/-- A key of the row, written from the same tables: the match of the row, or the lowest `OFFSET` of its class. -/
def encodeRow : Instr → RowKey
  | .nop => .ev (encode .nop)
  | .tick => .ev (encode .tick)
  | .adc => .ev (encode .adc)
  | .fg => .ev (encode .fg)
  | .setoff b => .ev (encode (.setoff b))
  | .wr b => .ev (encode (.wr b))
  | .rd => .ev (encode .rd)
  | .reset => .ev (encode .reset)
  | .phAlarmInt => .ph16 0x02
  | .phDiag => .ph16 0x04
  | .phAlarmRst => .ph16 0x06
  | .phToggleMid => .ph16 0x08
  | .phTempAssert => .ph16 0x0A
  | .phTimeInc => .ph16 0x0C
  | .phTempDeassert => .ph16 0x0E
  | .phToggleEnd => .ph16 0x10
  | .actAlarmInt => .af 0x0
  | .actDiag => .af 0x1
  | .actAlarmRst => .af 0x2
  | .actToggle => .af 0x3
  | .actTempAssert => .af 0x4
  | .actTimeInc => .af 0x5
  | .actTempDeassert => .af 0x6
  | .actConvDone => .af 0x7
  | .convStart => .af 0x8
  | .wrTime b => .busw 0 b
  | .wrYear b => .busw 6 b
  | .wrAlarm b => .busw 8 b
  | .wrTemp b => .busw 26 b
  | .wrCfg b => .busw 28 b
  | .wrAie b => .busw 29 b
  | .wrAif b => .busw 30 b
  | .wrOor b => .busw 31 b
  | .rdPlain => .busr 0
  | .rdTemph => .busr 26
  | .rdTempl => .busr 27
  | .rdOor => .busr 31

/-! ### Words as bytes, and the words of the table -/

/-- An event word kept as a number of two bytes: the bits above bit 10 are no part of it and must be 0 (R46). -/
def decodeWord (w : Nat) : Except DecodeError Instr :=
  if w < 2048 then .ok (decode (BitVec.ofNat 11 w)) else .error .notAnEventWord

/-- The instruction the decoder reads from a word of opcode_table.json.

A word of more than one byte is an event word (formats EV, BUSW and BUSR: the class rows of BUS_WRITE and BUS_READ have the
event word of their operation, since their key is `OFFSET`). A word of one byte is a key of format AF (0 to 8) and else a
key of format PH16; the two formats share the numbers 2, 4, 6 and 8 (log entry 9). -/
def decodeTableWord (nbits w : Nat) : Option Instr :=
  if nbits ≤ 8 then
    match decodeAction w with
    | .ok i => some i
    | .error _ => (decodePhase w).toOption
  else (decodeWord w).toOption

end Sys2Proof
end

