-- ==== Sys2Proof/Machine/State.lean ====
section
/-! DEFINITION. The state of the CAS block (10_state.md R10), its reset value (R25), and the reasons a step can stop. -/

namespace Sys2Proof.Machine

/-- The block's only memory is the register file `R[0..30]` (20_memory.md R30): a list of (offset, byte) pairs in one
canonical form, `Memory.wf`. An unlisted offset reads as `Memory.unlisted` says. -/
abbrev Memory := List Host.Cell

/-- What the environment puts on the input ports for one operation (30_encoding.md R45). -/
structure Input where
  /-- the port `ev`, the event select (R45, R47) -/
  ev : BitVec 3
  /-- the port `din`, the operand byte (R45) -/
  din : Byte
  /-- the port `adc_raw` during this operation; `none` where the environment does not constrain it (R62, U11) -/
  adcRaw : Option RawResult
  deriving DecidableEq, Repr

/-- The reasons a step stops with a fault: none. "No exceptions; failures are represented as flag states or silently-ignored
invalid operations" (60_exceptions.md R155). Safe and unsafe do not arise: no constructor exists. -/
inductive Fault
  deriving DecidableEq, Repr

/-- The reasons a step is refused. No meaning of this model raises one (R155: no operation is refused by the block). -/
inductive Refusal
  /-- raised by an arm of `exec` whose instruction has no meaning yet; safe; no arm raises it -/
  | notModelled (mnemonic : String)
  deriving DecidableEq, Repr

/-- The state of the block. The first group is the tuple of R10, the second the ports of R45 (log entry 6),
the third the model's own. -/
structure State where
  /-- `R[0..30]`, the register file (R11 to R17) -/
  mem : Memory
  /-- `PHASE`, a natural number from 0 to `N - 1` (R18; log entry 11) -/
  phase : Nat
  /-- `AF[7:0]`, the action flags, by the bit indices of R19 -/
  af : Byte
  /-- `LEAP`, the leap-year indicator (R20) -/
  leap : Bool
  /-- `OFFSET`, the register pointer of the bus port (R21) -/
  offset : Byte
  /-- `HIGH_READ`, the high-byte-read record (R22) -/
  highRead : Bool
  /-- `INT_U`, output latch (R23) -/
  intU : Bool
  /-- `INT_A[1]`, output latch (R23) -/
  intA1 : Bool
  /-- `INT_A[2]`, output latch (R23) -/
  intA2 : Bool
  /-- `INT_A[3]`, output latch (R23) -/
  intA3 : Bool
  /-- `TRDY_OUT`, output latch (R23) -/
  trdyOut : Bool
  /-- `HZ_OUT`, output latch (R23) -/
  hzOut : Bool
  /-- port `adc_raw` during the operation; `none`: not constrained by the environment (R45, U11) -/
  adcRaw : Option RawResult
  /-- port `dout` after the operation; `none`: meaningless, the operation was no BUS_READ (R45) -/
  dout : Option Byte
  /-- port `status` after the operation; `none`: the operation was no BUS_WRITE (R45, R145) -/
  status : Option Bool
  /-- pulse `adc_start` of this operation (R45, R126) -/
  adcStart : Bool
  /-- pulse `diag_req` of this operation (R45, R121) -/
  diagReq : Bool
  /-- MODEL: the parameters of R5, which no operation changes (log entry 1) -/
  conf : Config
  /-- MODEL: the events the environment will apply, the next one first (R37, R45; log entry 2) -/
  inputs : List Input
  /-- MODEL: how many free values have been used (log entry 3) -/
  freeCount : Nat
  /-- MODEL: the mark of a run that has met an ACT_TIME_INC outside its domain (R98 "mark the run"; log entry 4) -/
  marked : Bool
  deriving DecidableEq, Repr

/-- The machine right after reset (10_state.md R25): the register file at its reset contents (no cell listed), every other
element of the block at the value of R25, no output of an operation yet, the default parameters, no event applied
yet (DESIGN CHOICE: log entry 7). -/
def State.reset : State where
  mem := []
  phase := 0
  af := 0x00
  leap := true
  offset := 0x00
  highRead := false
  intU := false
  intA1 := false
  intA2 := false
  intA3 := false
  trdyOut := false
  hzOut := false
  adcRaw := none
  dout := none
  status := none
  adcStart := false
  diagReq := false
  conf := Config.default
  inputs := []
  freeCount := 0
  marked := false

end Sys2Proof.Machine
end

