-- ==== Sys2Proof/Machine/Ops.lean ====
section
/-! DEFINITION. The shared operations over the register file, the ports and the free values.

The block takes no exception and returns from none (60_exceptions.md R155, R162, R163): there is no operation here that
saves a state or enters a handler. What plays that part, a flag set now and an action performed later, is in Flags.lean and
Foreground.lean. -/

namespace Sys2Proof.Machine

/-! ### The register file as memory (20_memory.md R30, R31) -/

/-- What an unlisted offset reads as: the reset contents of the register file (10_state.md R25, 70_reset_and_hazards.md
R176), and 0x00 at the offsets 31 to 255, which hold nothing (20_memory.md R44; log entry 5). -/
def Memory.unlisted (a : Nat) : Byte :=
  match a with
  | 3 => 0x06
  | 4 => 0x01
  | 5 => 0x01
  | 7 => 0x20
  | _ => 0x00

/-- The byte at offset `a`. -/
def Memory.read : Memory → Nat → Byte
  | [], a => Memory.unlisted a
  | (k, v) :: t, a => if k = a then v else Memory.read t a

/-- The memory with every entry of offset `a` taken out. -/
def Memory.forget (m : Memory) (a : Nat) : Memory := m.filter (fun c => c.1 != a)

/-- The memory with an entry put before the first larger offset. -/
def Memory.place : Memory → Nat → Byte → Memory
  | [], a, v => [(a, v)]
  | (k, x) :: t, a, v => if a < k then (a, v) :: (k, x) :: t else (k, x) :: Memory.place t a v

/-- The memory after byte `v` is stored at offset `a`: the entry is left out where `v` is what an unlisted offset reads as, so
that equal memories are equal lists. -/
def Memory.write (m : Memory) (a : Nat) (v : Byte) : Memory :=
  if v = Memory.unlisted a then m.forget a else (m.forget a).place a v

/-- The canonical form, for offsets from `lo` on: strictly rising, each an offset that holds a register, none listed with the
byte it reads as unlisted. -/
def Memory.wfFrom (lo : Nat) : Memory → Bool
  | [] => true
  | (k, v) :: t => decide (lo ≤ k) && decide (k ≤ 30) && v != Memory.unlisted k && Memory.wfFrom (k + 1) t

/-- The canonical form. -/
def Memory.wf (m : Memory) : Bool := Memory.wfFrom 0 m

/-- `R[i]`: plain read of a register by an internal engine (00_scope.md R7). -/
def State.reg (s : State) (i : Nat) : Byte := s.mem.read i

/-- `R[i] <- v`: plain write of a register by an internal engine (R7). -/
def State.setReg (s : State) (i : Nat) (v : Byte) : State := { s with mem := s.mem.write i v }

/-! ### Bits of a byte (R6) -/

/-- `b` with bit `i` set to `v`, the other bits as they were (20_memory.md R34). -/
def setBit (b : Byte) (i : Nat) (v : Bool) : Byte :=
  if v then b ||| (1#8 <<< i) else b &&& ~~~(1#8 <<< i)

/-! ### Ports (30_encoding.md R45) -/

/-- "No event": the idle code 000 (R45, R61). -/
def idleInput : Input := { ev := 0b000, din := 0x00, adcRaw := none }

/-- The input ports of the next operation: the next event of the environment, or the idle code where there is none. -/
def State.nextInput (s : State) : Input := s.inputs.headD idleInput

/-- The event word on the ports (R46). -/
def Input.word (e : Input) : EventWord := eventWord e.ev e.din

/-- The state in which the next operation runs: its inputs stand on the ports, and the outputs that belong to the operation
before it (the byte read, the write status, the pulses; R7, R45) are over. -/
def State.begin (s : State) : State :=
  { s with
    inputs := s.inputs.tail
    adcRaw := s.nextInput.adcRaw
    dout := none
    status := none
    adcStart := false
    diagReq := false }

/-- `s` with the environment applying the event of word `w` before the events it was to apply. -/
def State.present (s : State) (w : EventWord) : State :=
  { s with inputs := { ev := w.extractLsb' 8 3, din := w.extractLsb' 0 8, adcRaw := none } :: s.inputs }

/-! ### Free values -/

/-- `s` after `k` free values have been used. -/
def State.spend (s : State) (k : Nat) : State := { s with freeCount := s.freeCount + k }

end Sys2Proof.Machine
end

