-- ==== Sys2Proof/Machine/Operands.lean ====
section
/-! DEFINITION. The forms in which the block reads a byte: packed BCD (30_encoding.md R49), the alarm record (R50, R55), the
day mask (R54), and the arithmetic of the calendar engine on them (41_calendar.md R80, R81, R87, R90, R95, R96). -/

namespace Sys2Proof.Machine

/-! ### Packed BCD (R6, R7, R49) -/

/-- `b[7:4]`, the tens digit. -/
def tens (b : Byte) : Nat := (b >>> 4).toNat

/-- `b[3:0]`, the ones digit. -/
def ones (b : Byte) : Nat := (b &&& 0x0F).toNat

/-- `bcd2dec(b) = 10 * b[7:4] + b[3:0]` (R7). -/
def bcd2dec (b : Byte) : Nat := 10 * tens b + ones b

/-- `dec2bcd(d) = ((d / 10) << 4) | (d % 10)` (R7). -/
def dec2bcd (d : Nat) : Byte := (BitVec.ofNat 8 (d / 10) <<< 4) ||| BitVec.ofNat 8 (d % 10)

/-- `is_bcd(b)`: both nibbles at most 9 (R7). -/
def isBcd (b : Byte) : Bool := decide (tens b ≤ 9) && decide (ones b ≤ 9)

/-- `b` is a valid BCD byte of value `lo` to `hi - 1`: the valid set of a calendar field (R49). -/
def bcdIn (b : Byte) (lo hi : Nat) : Bool :=
  isBcd b && decide (lo ≤ bcd2dec b) && decide (bcd2dec b < hi)

/-- `bcd_step(b, limit, first)`: one added to a two-digit decimal number, and whether it reached its limit (R80). -/
def bcdStep (b : Byte) (limit first : Nat) : Byte × Bool :=
  if bcd2dec b + 1 = limit then (dec2bcd first, true) else (dec2bcd (bcd2dec b + 1), false)

/-- `dec2bcd_ext(limit)` (R81): the packed byte of a sentinel, 0xA0 for 100. -/
def dec2bcdExt (limit : Nat) : Byte := BitVec.ofNat 8 (16 * (limit / 10) + limit % 10)

/-- `bcd_step_bytewise(b, limit, first)`: the same step on the byte, an 8-bit add and the nibble carry fix-up (R81; informative,
R80 is normative). -/
def bcdStepBytewise (b : Byte) (limit first : Nat) : Byte × Bool :=
  let t := b + 1
  let u := if ones t = 0xA then ((t >>> 4) + 1) <<< 4 else t
  if u = dec2bcdExt limit then (dec2bcd first, true) else (u, false)

/-! ### Month length, date step, leap years (R87, R90, R95, R96) -/

/-- `mlen(m, LEAP)` for a month number `m` from 1 to 12 (R87). -/
def mlen (m : Nat) (leap : Bool) : Nat :=
  match m with
  | 2 => if leap then 29 else 28
  | 4 | 6 | 9 | 11 => 30
  | _ => 31

/-- The `requires` clause of the date stage (R90). -/
def dateStepOk (date month : Byte) (leap : Bool) : Bool :=
  isBcd date && bcdIn month 1 13 && decide (1 ≤ bcd2dec date) && decide (bcd2dec date ≤ mlen (bcd2dec month) leap)

/-- Whether the date after the step, `d`, rolls over in month `m` (R90). -/
def dateRolls (d m : Nat) (leap : Bool) : Bool :=
  (decide (d = 29) && decide (m = 2) && !leap)
  || (decide (d = 30) && decide (m = 2))
  || (decide (d = 31) && (decide (m = 4) || decide (m = 6) || decide (m = 9) || decide (m = 11)))
  || (decide (d = 32) && (decide (m = 1) || decide (m = 3) || decide (m = 5) || decide (m = 7) || decide (m = 8)
        || decide (m = 10) || decide (m = 12)))

/-- `date_step(date, month, leap)` (R90). -/
def dateStep (date month : Byte) (leap : Bool) : Byte × Bool :=
  if dateRolls (bcd2dec date + 1) (bcd2dec month) leap then (0x01, true) else (dec2bcd (bcd2dec date + 1), false)

/-- `is_leap(cent, year)`: the Gregorian rule on the four-digit year (R95). -/
def isLeap (cent year : Byte) : Bool :=
  let y := 100 * bcd2dec cent + bcd2dec year
  decide (y % 4 = 0) && (decide (y % 100 ≠ 0) || decide (y % 400 = 0))

/-- `div4(b)`: a two-digit BCD value is divisible by 4, read off its bits (R96). -/
def div4 (b : Byte) : Bool :=
  (!b.getLsbD 4 && !b.getLsbD 1 && !b.getLsbD 0) || (b.getLsbD 4 && b.getLsbD 1 && !b.getLsbD 0)

/-! ### Day mask and alarm records (R50, R54, R55) -/

/-- `daymask(d)`: bit `d - 1` for the days 1 to 7, the parameter `DOW_OOR_MASK` for any other byte (R54). -/
def dayMask (c : Config) (dow : Byte) : Byte :=
  if 1 ≤ dow.toNat ∧ dow.toNat ≤ 7 then 1#8 <<< (dow.toNat - 1) else c.dowOorMask

/-- `A_MIN(n)`, the minute byte of alarm `n`, 1 to 6 (R13, R105). -/
def State.alarmMin (s : State) (n : Nat) : Byte := s.reg (8 + 3 * (n - 1))

/-- `A_HOUR(n)`, the hour byte with the `ACTIVE` bit (R13, R105). -/
def State.alarmHour (s : State) (n : Nat) : Byte := s.reg (8 + 3 * (n - 1) + 1)

/-- `A_DAY(n)`, the day byte with the `ALLDAYS` bit (R13, R105). -/
def State.alarmDay (s : State) (n : Nat) : Byte := s.reg (8 + 3 * (n - 1) + 2)

end Sys2Proof.Machine
end

