-- ==== Sys2Proof/Machine/Flags.lean ====
section
/-! DEFINITION. Flag bits: the action flags `AF` (10_state.md R19), the pending set and its choice (40_scheduler.md R69, R71),
and the named bits of CFG, AIE and AIF (30_encoding.md R51 to R53) with the guards of the bus port (44_bus_port.md R141,
R143). -/

namespace Sys2Proof.Machine

/-! ### Named bits of CFG and AIE (R51, R52) -/

/-- `R[28].DED`. -/
def State.ded (s : State) : Bool := (s.reg 28).getLsbD s.conf.dedBit

/-- `R[28].CONV`. -/
def State.conv (s : State) : Bool := (s.reg 28).getLsbD s.conf.convBit

/-- `R[28].RDY`. -/
def State.rdy (s : State) : Bool := (s.reg 28).getLsbD s.conf.rdyBit

/-- `R[29].MODE`. -/
def State.mode (s : State) : Bool := (s.reg 29).getLsbD s.conf.modeBit.index

/-- `R[28].CONV <- v` (R7, R34). -/
def State.setConv (s : State) (v : Bool) : State := s.setReg 28 (setBit (s.reg 28) s.conf.convBit v)

/-- `R[28].RDY <- v` (R7, R34). -/
def State.setRdy (s : State) (v : Bool) : State := s.setReg 28 (setBit (s.reg 28) s.conf.rdyBit v)

/-- `cfg_guard(old, b)`: the master can keep or clear `RDY`, never set it (R141). -/
def cfgGuard (c : Config) (old b : Byte) : Byte :=
  if old.getLsbD c.rdyBit then b else setBit b c.rdyBit false

/-- `aif_guard(old, b)`: bits 7 and 6 as sent, bits 5 to 0 can only stay or clear (R143). -/
def aifGuard (old b : Byte) : Byte := (b &&& 0xC0) ||| (b &&& old &&& 0x3F)

/-- `ded_gate()`: the one gate of the three dedicated outputs (R112). -/
def State.dedGate (s : State) : Bool :=
  match s.conf.dedGate with
  | .cfg => s.ded
  | .aie => s.mode
  | .both => s.ded && s.mode
  | .either => s.ded || s.mode

/-! ### Action flags (R19) -/

/-- The nine actions that FG_STEP can perform (R58, R73). -/
inductive Action
  /-- flag 0 -/
  | alarmInt
  /-- flag 1 -/
  | diag
  /-- flag 2 -/
  | alarmRst
  /-- flag 3 -/
  | toggle
  /-- flag 4 -/
  | tempAssert
  /-- flag 5 -/
  | timeInc
  /-- flag 6 -/
  | tempDeassert
  /-- flag 7 -/
  | convDone
  /-- no flag: pending while `R[28].CONV` is 1 -/
  | convStart
  deriving DecidableEq, Repr

/-- The index of an action: its bit in `AF`, 8 for CONV_START (R58). -/
def Action.index : Action → Nat
  | .alarmInt => 0
  | .diag => 1
  | .alarmRst => 2
  | .toggle => 3
  | .tempAssert => 4
  | .timeInc => 5
  | .tempDeassert => 6
  | .convDone => 7
  | .convStart => 8

/-- The actions in the order of the table of R58. -/
def Action.all : List Action :=
  [.alarmInt, .diag, .alarmRst, .toggle, .tempAssert, .timeInc, .tempDeassert, .convDone, .convStart]

/-- The flag at bit `i` of `AF` is set; a flag that is 1 stays 1, the requests merge (R66). -/
def State.setFlag (s : State) (i : Nat) : State := { s with af := setBit s.af i true }

/-- The flag that an action has in `AF` is cleared; CONV_START has none (R70). -/
def State.clearFlag (s : State) (a : Action) : State :=
  match a with
  | .convStart => s
  | a => { s with af := setBit s.af a.index false }

/-- Whether an action is pending (R69). -/
def State.isPending (s : State) (a : Action) : Bool :=
  match a with
  | .convStart => s.conv
  | a => s.af.getLsbD a.index

/-- The pending actions, lowest index first (R69). -/
def State.pending (s : State) : List Action := Action.all.filter s.isPending

/-- `choose(pending set)` (R71): with `PRIORITY` the lowest index; with `ANY` any pending action, by a free choice (U6). -/
def State.choose (s : State) : Option Action :=
  match s.conf.fgOrder with
  | .priority => s.pending.head?
  | .any => s.pending[Config.freeChoice s.freeCount % s.pending.length]?

/-- The free choice counted as used, where `choose` used one. -/
def State.spendChoice (s : State) : State :=
  match s.conf.fgOrder with
  | .priority => s
  | .any => s.spend 1

end Sys2Proof.Machine
end

