-- ==== Sys2Proof/Machine/Alarm.lean ====
section
/-! DEFINITION. The alarm engine (42_alarm.md): the comparator `check_alarms`, ACT_ALARM_INT and ACT_ALARM_RST. -/

namespace Sys2Proof.Machine

/-! ### The comparator -/

/-- `match(n)` (R107): raw bytes, minute and hour and day term (R108). -/
def State.alarmMatch (s : State) (n : Nat) : Bool :=
  decide (s.reg 1 = s.alarmMin n)
  && decide (s.reg 2 ||| 0x80 = s.alarmHour n)
  && ((s.alarmDay n).getLsbD 7 || decide (s.alarmDay n &&& dayMask s.conf (s.reg 3) ≠ 0))

/-- The bit of alarm `n` in AIF, if it matches. -/
def State.matchBit (s : State) (n : Nat) : Byte := if s.alarmMatch n then 1#8 <<< (n - 1) else 0

/-- `match(1) | match(2) << 1 | ... | match(6) << 5` (R106). -/
def State.alarmMatches (s : State) : Byte :=
  s.matchBit 1 ||| s.matchBit 2 ||| s.matchBit 3 ||| s.matchBit 4 ||| s.matchBit 5 ||| s.matchBit 6

/-- `check_alarms()`: every matching alarm's flag is latched; no flag is cleared (R106). -/
def State.checkAlarms (s : State) : State := s.setReg 30 (s.reg 30 ||| s.alarmMatches)

/-! ### Routing -/

/-- `fired`: the alarms that are latched and enabled, bits 5 to 0 (R111). -/
def State.fired (s : State) : Byte := s.reg 30 &&& s.reg 29 &&& 0x3F

/-- ACT_ALARM_INT: the unison output for any fired alarm, the dedicated outputs of alarms 1 to 3 through the gate; latches
are only ever set here (R111, R112). -/
def State.actAlarmInt (s : State) : State :=
  { s with
    intU := s.intU || decide (s.fired ≠ 0)
    intA1 := s.intA1 || (s.fired.getLsbD 0 && s.dedGate)
    intA2 := s.intA2 || (s.fired.getLsbD 1 && s.dedGate)
    intA3 := s.intA3 || (s.fired.getLsbD 2 && s.dedGate) }

/-- ACT_ALARM_RST: the four alarm outputs are deasserted, unconditionally (R113). -/
def State.actAlarmRst (s : State) : State :=
  { s with intU := false, intA1 := false, intA2 := false, intA3 := false }

/-- ACT_ALARM_INT (R111). -/
def execActAlarmInt (s : State) : Host.Outcome State Fault Refusal := .next s.actAlarmInt

/-- ACT_ALARM_RST (R113). -/
def execActAlarmRst (s : State) : Host.Outcome State Fault Refusal := .next s.actAlarmRst

end Sys2Proof.Machine
end

