-- ==== Sys2Proof/Machine/Calendar.lean ====
section
/-! DEFINITION. The BCD calendar engine (41_calendar.md): `check_leap_year` and ACT_TIME_INC with its eight stages.

Each stage first asks whether its field is in its valid set (R83 to R93). Where it is not, "the result of that stage and of
every later stage of the same operation is unspecified" (R98): from there the operation goes on with free values and the run
is marked (`State.unspecifiedFrom`, log entry 4). -/

namespace Sys2Proof.Machine

/-- `check_leap_year()` (R95). Where the year is not valid BCD "the value written to `LEAP` is unspecified": a free bit (U3). -/
def State.checkLeapYear (s : State) : State :=
  if isBcd (s.reg 7) && isBcd (s.reg 6) then { s with leap := isLeap (s.reg 7) (s.reg 6) }
  else { s.spend 1 with leap := Config.freeBit s.freeCount }

/-- The registers `R[8 - k]` to `R[7]` hold free bytes. -/
def State.freeLastFields (s : State) : Nat → State
  | 0 => s
  | k + 1 => (s.setReg (7 - k) (Config.freeByte (s.freeCount + k))).freeLastFields k

/-- The rest of an ACT_TIME_INC whose stage on field `j` is outside its domain (R98, U2): the fields `j` to 7 and `LEAP` hold
free values; the alarm flags may have been set, none cleared (42_alarm.md R110); the run is marked. -/
def State.unspecifiedFrom (s : State) (j : Nat) : State :=
  let t := s.freeLastFields (8 - j)
  let u := t.setReg 30 (t.reg 30 ||| (Config.freeByte (s.freeCount + 8) &&& 0x3F))
  { u.spend 9 with leap := Config.freeBit s.freeCount, marked := true }

/-- Century stage (R93): its carry is dropped; then the leap recompute, which is due here (R94), and the comparator (R99). -/
def State.centuryStage (s : State) : State :=
  if isBcd (s.reg 7) then (s.setReg 7 (bcdStep (s.reg 7) 100 0).1).checkLeapYear.checkAlarms
  else s.unspecifiedFrom 7

/-- Year stage (R92). Without a carry the leap recompute, which is due here (R94), and the comparator (R99) end the
operation. DEDUCED: with a century that is not valid BCD only `LEAP` is open there (R95, R98; log entry 10). -/
def State.yearStage (s : State) : State :=
  if isBcd (s.reg 6) then
    let r := bcdStep (s.reg 6) 100 0
    let t := s.setReg 6 r.1
    if r.2 then t.centuryStage else t.checkLeapYear.checkAlarms
  else s.unspecifiedFrom 6

/-- Month stage (R91): a carry makes the leap recompute due. -/
def State.monthStage (s : State) : State :=
  if bcdIn (s.reg 5) 1 13 then
    let r := bcdStep (s.reg 5) 13 1
    let t := s.setReg 5 r.1
    if r.2 then t.yearStage else t.checkAlarms
  else s.unspecifiedFrom 5

/-- Date stage (R90), on the month and the indicator from before the operation. -/
def State.dateStage (s : State) : State :=
  if dateStepOk (s.reg 4) (s.reg 5) s.leap then
    let r := dateStep (s.reg 4) (s.reg 5) s.leap
    let t := s.setReg 4 r.1
    if r.2 then t.monthStage else t.checkAlarms
  else s.unspecifiedFrom 4

/-- Day-of-week stage (R86), followed by the date stage: the hour carry goes to both. -/
def State.dayStage (s : State) : State :=
  if 1 ≤ (s.reg 3).toNat ∧ (s.reg 3).toNat ≤ 7 then
    (s.setReg 3 (if s.reg 3 = 7 then 1 else s.reg 3 + 1)).dateStage
  else s.unspecifiedFrom 3

/-- Hour stage (R85). -/
def State.hourStage (s : State) : State :=
  if bcdIn (s.reg 2) 0 24 then
    let r := bcdStep (s.reg 2) 24 0
    let t := s.setReg 2 r.1
    if r.2 then t.dayStage else t.checkAlarms
  else s.unspecifiedFrom 2

/-- Minute stage (R84). -/
def State.minuteStage (s : State) : State :=
  if bcdIn (s.reg 1) 0 60 then
    let r := bcdStep (s.reg 1) 60 0
    let t := s.setReg 1 r.1
    if r.2 then t.hourStage else t.checkAlarms
  else s.unspecifiedFrom 1

/-- ACT_TIME_INC, from the second stage on (R82, R83). Without a second carry the comparator does not run (R99). -/
def State.timeInc (s : State) : State :=
  if bcdIn (s.reg 0) 0 60 then
    let r := bcdStep (s.reg 0) 60 0
    let t := s.setReg 0 r.1
    if r.2 then t.minuteStage else t
  else s.unspecifiedFrom 0

/-- ACT_TIME_INC (R82). -/
def execActTimeInc (s : State) : Host.Outcome State Fault Refusal := .next s.timeInc

end Sys2Proof.Machine
end

