-- ==== Sys2Proof/Machine/BusPort.lean ====
section
/-! DEFINITION. The bus port (44_bus_port.md): BUS_SET_OFFSET, BUS_WRITE with its eight classes, BUS_READ with its four. -/

namespace Sys2Proof.Machine

/-- `OFFSET <- (OFFSET + 1) & 0xFF` (R136, R146, R151). -/
def State.advanceOffset (s : State) : State := { s with offset := s.offset + 1 }

/-! ### BUS_WRITE -/

/-- The end of every BUS_WRITE: the pointer advances and the status is success (R136, R145). -/
def State.finishWrite (s : State) : State := { s.advanceOffset with status := some true }

/-- `R[OFFSET] <- b`, the byte as sent. -/
def State.storeAtOffset (s : State) (b : Byte) : State := s.setReg s.offset.toNat b

/-- `R[28] <- cfg_guard(R[28], b)` (R141). -/
def State.storeCfg (s : State) (b : Byte) : State := s.setReg 28 (cfgGuard s.conf (s.reg 28) b)

/-- `R[30] <- aif_guard(R[30], b)` (R143). -/
def State.storeAif (s : State) (b : Byte) : State := s.setReg 30 (aifGuard (s.reg 30) b)

/-- BUS_WRITE (R136): the class by `OFFSET` before the operation. -/
def State.busWrite (s : State) (b : Byte) : State :=
  let a := s.offset.toNat
  State.finishWrite
    (if a ≤ 5 then s.storeAtOffset b
     else if a ≤ 7 then (s.storeAtOffset b).checkLeapYear
     else if a ≤ 25 then s.storeAtOffset b
     else if a ≤ 27 then s
     else if a = 28 then s.storeCfg b
     else if a = 29 then s.storeAtOffset b
     else if a = 30 then s.storeAif b
     else s)

/-! ### BUS_READ -/

/-- The end of every BUS_READ: the pointer advances and the byte stands on `dout` (R146). -/
def State.finishRead (s : State) (v : Byte) : State := { s.advanceOffset with dout := some v }

/-- The side effect of a read of offset 27: with the record set, `RDY` and the record are cleared (R149). -/
def State.releaseResult (s : State) : State :=
  if s.highRead then { s.setRdy false with highRead := false } else s

/-- BUS_READ (R146): the byte is the register's value before any side effect of this read. -/
def State.busRead (s : State) : State :=
  let a := s.offset.toNat
  if a = 26 then { s with highRead := true }.finishRead (s.reg 26)
  else if a = 27 then s.releaseResult.finishRead (s.reg 27)
  else if a ≤ 30 then s.finishRead (s.reg a)
  else s.finishRead 0x00

/-! ### The three operations -/

/-- BUS_SET_OFFSET (R135). -/
def execSetoff (b : Byte) (s : State) : Host.Outcome State Fault Refusal := .next { s with offset := b }

/-- BUS_WRITE (R136). -/
def execWr (b : Byte) (s : State) : Host.Outcome State Fault Refusal := .next (s.busWrite b)

/-- BUS_READ (R146). -/
def execRd (s : State) : Host.Outcome State Fault Refusal := .next s.busRead

/-! ### The classes of BUS_WRITE (R59)

A class is BUS_WRITE in the states whose `OFFSET` is in the class. In any other state the same event word is a write of the
class that `OFFSET` names (log entry 8). -/

/-- WR.TIME, offsets 0 to 5 (R137). -/
def execWrTime (b : Byte) (s : State) : Host.Outcome State Fault Refusal :=
  .next (if s.offset.toNat ≤ 5 then (s.storeAtOffset b).finishWrite else s.busWrite b)

/-- WR.YEAR, offsets 6 and 7: the indicator is recomputed (R138). -/
def execWrYear (b : Byte) (s : State) : Host.Outcome State Fault Refusal :=
  .next (if 6 ≤ s.offset.toNat ∧ s.offset.toNat ≤ 7 then (s.storeAtOffset b).checkLeapYear.finishWrite else s.busWrite b)

/-- WR.ALARM, offsets 8 to 25 (R139). -/
def execWrAlarm (b : Byte) (s : State) : Host.Outcome State Fault Refusal :=
  .next (if 8 ≤ s.offset.toNat ∧ s.offset.toNat ≤ 25 then (s.storeAtOffset b).finishWrite else s.busWrite b)

/-- WR.TEMP, offsets 26 and 27: ignored (R140). -/
def execWrTemp (b : Byte) (s : State) : Host.Outcome State Fault Refusal :=
  .next (if 26 ≤ s.offset.toNat ∧ s.offset.toNat ≤ 27 then s.finishWrite else s.busWrite b)

/-- WR.CFG, offset 28 (R141). -/
def execWrCfg (b : Byte) (s : State) : Host.Outcome State Fault Refusal :=
  .next (if s.offset.toNat = 28 then (s.storeCfg b).finishWrite else s.busWrite b)

/-- WR.AIE, offset 29 (R142). -/
def execWrAie (b : Byte) (s : State) : Host.Outcome State Fault Refusal :=
  .next (if s.offset.toNat = 29 then (s.storeAtOffset b).finishWrite else s.busWrite b)

/-- WR.AIF, offset 30 (R143). -/
def execWrAif (b : Byte) (s : State) : Host.Outcome State Fault Refusal :=
  .next (if s.offset.toNat = 30 then (s.storeAif b).finishWrite else s.busWrite b)

/-- WR.OOR, offsets 31 to 255: the byte is discarded (R144). -/
def execWrOor (b : Byte) (s : State) : Host.Outcome State Fault Refusal :=
  .next (if 31 ≤ s.offset.toNat then s.finishWrite else s.busWrite b)

/-! ### The classes of BUS_READ (R60), in the same way -/

/-- RD.PLAIN, offsets 0 to 25 and 28 to 30 (R147). -/
def execRdPlain (s : State) : Host.Outcome State Fault Refusal :=
  .next (if s.offset.toNat ≤ 25 ∨ (28 ≤ s.offset.toNat ∧ s.offset.toNat ≤ 30) then s.finishRead (s.reg s.offset.toNat)
    else s.busRead)

/-- RD.TEMPH, offset 26: the record is set (R148). -/
def execRdTemph (s : State) : Host.Outcome State Fault Refusal :=
  .next (if s.offset.toNat = 26 then { s with highRead := true }.finishRead (s.reg 26) else s.busRead)

/-- RD.TEMPL, offset 27 (R149). -/
def execRdTempl (s : State) : Host.Outcome State Fault Refusal :=
  .next (if s.offset.toNat = 27 then s.releaseResult.finishRead (s.reg 27) else s.busRead)

/-- RD.OOR, offsets 31 to 255: 0x00 (R150). -/
def execRdOor (s : State) : Host.Outcome State Fault Refusal :=
  .next (if 31 ≤ s.offset.toNat then s.finishRead 0x00 else s.busRead)

end Sys2Proof.Machine
end

