-- ==== Sys2Proof/Machine/Outputs.lean ====
section
/-! DEFINITION. Test outputs and the temperature handshake (43_outputs_temperature.md): ACT_TOGGLE, ACT_DIAG, ACT_TEMP_ASSERT,
ACT_TEMP_DEASSERT, CONV_START, ACT_CONV_DONE. -/

namespace Sys2Proof.Machine

/-- ACT_TOGGLE (R120). -/
def State.actToggle (s : State) : State := { s with hzOut := !s.hzOut }

/-- ACT_DIAG: a pulse on `diag_req`, no state change (R121). -/
def State.actDiag (s : State) : State := { s with diagReq := true }

/-- ACT_TEMP_ASSERT: with `RDY = 0` nothing changes (R124). -/
def State.actTempAssert (s : State) : State := if s.rdy then { s with trdyOut := true } else s

/-- ACT_TEMP_DEASSERT, unconditional (R125). -/
def State.actTempDeassert (s : State) : State := { s with trdyOut := false }

/-- CONV_START: "enabled only when R[28].CONV == 1"; a pulse on `adc_start`, the request bit is cleared (R126). Where it is not
enabled nothing is pending for it, and a foreground step with nothing to perform changes nothing (R72; log entry 8). -/
def State.convStart (s : State) : State :=
  if s.conv then { s.setConv false with adcStart := true } else s

/-- The result retrieved from the ADC service: the level of `adc_raw` (R127), a free value where the environment does not
constrain it (U11). -/
def State.rawResult (s : State) : RawResult := s.adcRaw.getD (Config.freeRaw s.freeCount)

/-- The free result counted as used, where `rawResult` used one. -/
def State.spendRaw (s : State) : State :=
  match s.adcRaw with
  | some _ => s
  | none => s.spend 1

/-- ACT_CONV_DONE: the raw result into `R[26]` (high) and `R[27]` (low), `RDY` set (R127). -/
def State.convDone (s : State) : State :=
  (((s.spendRaw.setReg 26 (s.rawResult.extractLsb' 8 8)).setReg 27 (s.rawResult.extractLsb' 0 8))).setRdy true

/-- ACT_TOGGLE (R120). -/
def execActToggle (s : State) : Host.Outcome State Fault Refusal := .next s.actToggle

/-- ACT_DIAG (R121). -/
def execActDiag (s : State) : Host.Outcome State Fault Refusal := .next s.actDiag

/-- ACT_TEMP_ASSERT (R124). -/
def execActTempAssert (s : State) : Host.Outcome State Fault Refusal := .next s.actTempAssert

/-- ACT_TEMP_DEASSERT (R125). -/
def execActTempDeassert (s : State) : Host.Outcome State Fault Refusal := .next s.actTempDeassert

/-- CONV_START (R126). -/
def execConvStart (s : State) : Host.Outcome State Fault Refusal := .next s.convStart

/-- ACT_CONV_DONE (R127). -/
def execActConvDone (s : State) : Host.Outcome State Fault Refusal := .next s.convDone

end Sys2Proof.Machine
end

