-- ==== Sys2Proof/Machine/Foreground.lean ====
section
/-! DEFINITION. The foreground dispatcher: FG_STEP (40_scheduler.md R70). -/

namespace Sys2Proof.Machine

/-- The action named in the table of R58 and R73 is performed. -/
def State.perform (s : State) (a : Action) : State :=
  match a with
  | .alarmInt => s.actAlarmInt
  | .diag => s.actDiag
  | .alarmRst => s.actAlarmRst
  | .toggle => s.actToggle
  | .tempAssert => s.actTempAssert
  | .timeInc => s.timeInc
  | .tempDeassert => s.actTempDeassert
  | .convDone => s.convDone
  | .convStart => s.convStart

/-- FG_STEP (R70): with nothing pending no state change (R72); else one pending action is chosen (R71), its flag cleared, the
action performed. -/
def State.fgStep (s : State) : State :=
  match s.choose with
  | none => s
  | some a => (s.spendChoice.clearFlag a).perform a

/-- FG_STEP (R70). -/
def execFg (s : State) : Host.Outcome State Fault Refusal := .next s.fgStep

end Sys2Proof.Machine
end

