-- ==== Sys2Proof/Machine/Reset.lean ====
section
/-! DEFINITION. RESET (70_reset_and_hazards.md R175). -/

namespace Sys2Proof.Machine

/-- The registers after RESET (R175, R176): no cell listed, so that every offset reads as `Memory.unlisted` says. -/
def resetMemory : Memory := []

/-- RESET writes every element of the block's state and ends with `check_leap_year()` (R175). The parameters, the ports and
the environment's events are not state of the block and stay (R10, R175); the mark of R98 is over, since every element has
its reset value again (log entry 4). -/
def State.resetBlock (s : State) : State :=
  State.checkLeapYear
    { s with
      mem := resetMemory
      phase := 0
      af := 0x00
      offset := 0x00
      highRead := false
      intU := false
      intA1 := false
      intA2 := false
      intA3 := false
      trdyOut := false
      hzOut := false
      marked := false }

/-- RESET (R175). -/
def execReset (s : State) : Host.Outcome State Fault Refusal := .next s.resetBlock

end Sys2Proof.Machine
end

