-- ==== Sys2Proof/Machine/Scheduler.lean ====
section
/-! DEFINITION. The phase scheduler (40_scheduler.md): NOP, TICK with its phase lines (formats EV and PH16), ADC_DONE. -/

namespace Sys2Proof.Machine

/-- `p * (16 / N)` with `p = PHASE + 1`: the phase number of the next tick on the 16-step scale (R56, R57, R65). -/
def State.tickKey (s : State) : Nat := (s.phase + 1) * (16 / s.conf.ticks)

/-- `PHASE` after a tick: `p mod N` (R65; 90_conflicts.md C1). -/
def State.advancePhase (s : State) : State :=
  { s with phase := if s.phase + 1 = s.conf.ticks then 0 else s.phase + 1 }

/-- The flag request of the tick with phase number `k` (R56, R65). -/
def State.requestFlag (s : State) (k : Nat) : State :=
  if k = 2 then s.setFlag 0
  else if k = 4 then (if s.conf.diagEn then s.setFlag 1 else s)
  else if k = 6 then s.setFlag 2
  else if k = 8 then s.setFlag 3
  else if k = 10 then s.setFlag 4
  else if k = 12 then s.setFlag 5
  else if k = 14 then s.setFlag 6
  else if k = 16 then s.setFlag 3
  else s

/-- TICK (R65): at most one flag is set, and `PHASE` advances. -/
def State.tick (s : State) : State := (s.requestFlag s.tickKey).advancePhase

/-- NOP: no state change and no output change (R61). -/
def execNop (s : State) : Host.Outcome State Fault Refusal := .next s

/-- TICK (R65). -/
def execTick (s : State) : Host.Outcome State Fault Refusal := .next s.tick

/-- ADC_DONE: the flag "conversion finished" (R68). -/
def execAdc (s : State) : Host.Outcome State Fault Refusal := .next (s.setFlag 7)

/-! ### The phase lines (R56)

A phase line is TICK in the states whose phase number is the line's key. In any other state the tick takes the line that the
key of that state names (log entry 8). -/

/-- PH.ALARM_INT, `k = 2`. -/
def execPhAlarmInt (s : State) : Host.Outcome State Fault Refusal :=
  .next (if s.tickKey = 2 then (s.setFlag 0).advancePhase else s.tick)

/-- PH.DIAG, `k = 4`: the flag only if `DIAG_EN` is 1. -/
def execPhDiag (s : State) : Host.Outcome State Fault Refusal :=
  .next (if s.tickKey = 4 then (if s.conf.diagEn then s.setFlag 1 else s).advancePhase else s.tick)

/-- PH.ALARM_RST, `k = 6`. -/
def execPhAlarmRst (s : State) : Host.Outcome State Fault Refusal :=
  .next (if s.tickKey = 6 then (s.setFlag 2).advancePhase else s.tick)

/-- PH.TOGGLE_MID, `k = 8`. -/
def execPhToggleMid (s : State) : Host.Outcome State Fault Refusal :=
  .next (if s.tickKey = 8 then (s.setFlag 3).advancePhase else s.tick)

/-- PH.TEMP_ASSERT, `k = 10`. -/
def execPhTempAssert (s : State) : Host.Outcome State Fault Refusal :=
  .next (if s.tickKey = 10 then (s.setFlag 4).advancePhase else s.tick)

/-- PH.TIME_INC, `k = 12`. -/
def execPhTimeInc (s : State) : Host.Outcome State Fault Refusal :=
  .next (if s.tickKey = 12 then (s.setFlag 5).advancePhase else s.tick)

/-- PH.TEMP_DEASSERT, `k = 14`. -/
def execPhTempDeassert (s : State) : Host.Outcome State Fault Refusal :=
  .next (if s.tickKey = 14 then (s.setFlag 6).advancePhase else s.tick)

/-- PH.TOGGLE_END, `k = 16`: "also resets phase counter to 0". -/
def execPhToggleEnd (s : State) : Host.Outcome State Fault Refusal :=
  .next (if s.tickKey = 16 then { s.setFlag 3 with phase := 0 } else s.tick)

end Sys2Proof.Machine
end

