-- ==== Sys2Proof/Machine/Dispatch.lean ====
section
/-! DEFINITION. One arm per row of opcode_table.json, each one direct call of its meaning. -/

namespace Sys2Proof.Machine

def exec (i : Instr) (s : State) : Host.Outcome State Fault Refusal :=
  match i with
  -- format EV (30_encoding.md R47)
  | .nop => Sys2Proof.Machine.execNop s
  | .tick => Sys2Proof.Machine.execTick s
  | .adc => Sys2Proof.Machine.execAdc s
  | .fg => Sys2Proof.Machine.execFg s
  | .setoff b => Sys2Proof.Machine.execSetoff b s
  | .wr b => Sys2Proof.Machine.execWr b s
  | .rd => Sys2Proof.Machine.execRd s
  | .reset => Sys2Proof.Machine.execReset s
  -- format PH16 (R56)
  | .phAlarmInt => Sys2Proof.Machine.execPhAlarmInt s
  | .phDiag => Sys2Proof.Machine.execPhDiag s
  | .phAlarmRst => Sys2Proof.Machine.execPhAlarmRst s
  | .phToggleMid => Sys2Proof.Machine.execPhToggleMid s
  | .phTempAssert => Sys2Proof.Machine.execPhTempAssert s
  | .phTimeInc => Sys2Proof.Machine.execPhTimeInc s
  | .phTempDeassert => Sys2Proof.Machine.execPhTempDeassert s
  | .phToggleEnd => Sys2Proof.Machine.execPhToggleEnd s
  -- format AF (R58)
  | .actAlarmInt => Sys2Proof.Machine.execActAlarmInt s
  | .actDiag => Sys2Proof.Machine.execActDiag s
  | .actAlarmRst => Sys2Proof.Machine.execActAlarmRst s
  | .actToggle => Sys2Proof.Machine.execActToggle s
  | .actTempAssert => Sys2Proof.Machine.execActTempAssert s
  | .actTimeInc => Sys2Proof.Machine.execActTimeInc s
  | .actTempDeassert => Sys2Proof.Machine.execActTempDeassert s
  | .actConvDone => Sys2Proof.Machine.execActConvDone s
  | .convStart => Sys2Proof.Machine.execConvStart s
  -- format BUSW (R59)
  | .wrTime b => Sys2Proof.Machine.execWrTime b s
  | .wrYear b => Sys2Proof.Machine.execWrYear b s
  | .wrAlarm b => Sys2Proof.Machine.execWrAlarm b s
  | .wrTemp b => Sys2Proof.Machine.execWrTemp b s
  | .wrCfg b => Sys2Proof.Machine.execWrCfg b s
  | .wrAie b => Sys2Proof.Machine.execWrAie b s
  | .wrAif b => Sys2Proof.Machine.execWrAif b s
  | .wrOor b => Sys2Proof.Machine.execWrOor b s
  -- format BUSR (R60)
  | .rdPlain => Sys2Proof.Machine.execRdPlain s
  | .rdTemph => Sys2Proof.Machine.execRdTemph s
  | .rdTempl => Sys2Proof.Machine.execRdTempl s
  | .rdOor => Sys2Proof.Machine.execRdOor s

end Sys2Proof.Machine
end

