-- ==== Sys2Proof/Machine/Ports.lean ====
section
/-! DEFINITION. How a word of opcode_table.json comes to stand where the step takes its next event (log entry 9). -/

namespace Sys2Proof.Machine

/-- `s` in which the next step is an FG_STEP that performs the action of index `i`, 0 to 8 (R58): the event FG is applied
next, and that action is the only one pending. -/
def State.presentAction (s : State) (i : Nat) : State :=
  ({ s with af := if i ≤ 7 then setBit 0 i true else 0 }.setConv (decide (i = 8))).present (encode .fg)

/-- `s` in which the next step is a TICK whose phase number is `k` (R56, R57): the event TICK is applied next, and `PHASE` is
one below `k * N / 16`. -/
def State.presentPhase (s : State) (k : Nat) : State :=
  { s with phase := k / (16 / s.conf.ticks) - 1 }.present (encode .tick)

/-- `s` in which the next step runs the instruction that `decodeTableWord nbits w` reads. -/
def State.presentTableWord (s : State) (nbits w : Nat) : State :=
  if nbits ≤ 8 then
    match decodeAction w with
    | .ok _ => s.presentAction w
    | .error _ =>
      match decodePhase w with
      | .ok _ => s.presentPhase w
      | .error _ => s
  else s.present (BitVec.ofNat 11 w)

end Sys2Proof.Machine
end

