-- ==== Sys2Proof/Machine/Step.lean ====
section
/-! DEFINITION. One step: the next event of the environment is taken from the ports, decoded and executed, as one atomic
operation (20_memory.md R36, 30_encoding.md R45). -/

namespace Sys2Proof.Machine

/-- One step of the block. With no event applied the idle code 000 stands on the ports and the step is a NOP (R45, R61). -/
def step (s : State) : Host.Outcome State Fault Refusal := exec (decode s.nextInput.word) s.begin

/-- `s` with the word of an instruction standing where `step` takes its next event (log entry 9). -/
def State.withFetchWord (s : State) (nbits w : Nat) : State := s.presentTableWord nbits w

end Sys2Proof.Machine
end

