-- ==== Sys2Proof/Safety.lean ====
section
/-! DEFINITION. The terms in which statements about the block are made: the validity of the calendar (41_calendar.md R97),
the invariant of every step, the civil time that the time registers stand for, runs of several instructions, and what part of
a state is the block's own. -/

namespace Sys2Proof

/-! ### Groups of rows -/

/-- `i` is a TICK or one of its phase lines (R56). -/
def Instr.isTick (i : Instr) : Bool :=
  decide (i ∈ [.tick, .phAlarmInt, .phDiag, .phAlarmRst, .phToggleMid, .phTempAssert, .phTimeInc, .phTempDeassert,
    .phToggleEnd])

/-- `i` is a BUS_WRITE of byte `b`: WR or one of its classes (R59). -/
def Instr.isWrite (i : Instr) (b : Byte) : Bool :=
  decide (i ∈ [.wr b, .wrTime b, .wrYear b, .wrAlarm b, .wrTemp b, .wrCfg b, .wrAie b, .wrAif b, .wrOor b])

/-- `i` is a BUS_READ: RD or one of its classes (R60). -/
def Instr.isRead (i : Instr) : Bool := decide (i ∈ [.rd, .rdPlain, .rdTemph, .rdTempl, .rdOor])

end Sys2Proof

namespace Sys2Proof.Machine

/-! ### Validity and the invariant -/

/-- `CalValid` (R97). -/
def State.calValid (s : State) : Bool :=
  bcdIn (s.reg 0) 0 60 && bcdIn (s.reg 1) 0 60 && bcdIn (s.reg 2) 0 24
  && decide (1 ≤ (s.reg 3).toNat) && decide ((s.reg 3).toNat ≤ 7)
  && dateStepOk (s.reg 4) (s.reg 5) s.leap && isBcd (s.reg 6) && isBcd (s.reg 7)
  && (s.leap == isLeap (s.reg 7) (s.reg 6))

/-- Every stage that an ACT_TIME_INC reaches from here finds its field in its domain (the `requires` clauses of R83 to R93, in
the order of the carry chain of R82): a stage is reached when the field of each stage before it stands at its last value. -/
def State.reachedInDomain (s : State) : Bool :=
  bcdIn (s.reg 0) 0 60 && (s.reg 0 != 0x59
  || bcdIn (s.reg 1) 0 60 && (s.reg 1 != 0x59
  || bcdIn (s.reg 2) 0 24 && (s.reg 2 != 0x23
  || decide (1 ≤ (s.reg 3).toNat) && decide ((s.reg 3).toNat ≤ 7) && dateStepOk (s.reg 4) (s.reg 5) s.leap
    && (bcd2dec (s.reg 4) != mlen (bcd2dec (s.reg 5)) s.leap || s.reg 5 != 0x12
  || isBcd (s.reg 6) && (s.reg 6 != 0x99
  || isBcd (s.reg 7))))))

/-- `LEAP = is_leap(R[7], R[6])` whenever `R[6]` and `R[7]` are valid BCD (10_state.md R20). -/
def State.leapCurrent (s : State) : Bool :=
  !(isBcd (s.reg 7) && isBcd (s.reg 6)) || (s.leap == isLeap (s.reg 7) (s.reg 6))

/-- What every step keeps: the register file has its canonical form; `PHASE` is below `N` (10_state.md R18); the
configuration is legal (R5); `LEAP` agrees with a valid year (R20), unless the run is marked as having left the domain of the
calendar (R98); `AF.DIAG` is never set where the diagnostic sink is absent (R19, R65). -/
def State.inv (s : State) : Bool :=
  s.mem.wf && decide (s.phase < s.conf.ticks) && s.conf.wf && (s.marked || s.leapCurrent)
  && (s.conf.diagEn || !s.af.getLsbD 1)

/-! ### Civil time, in plain numbers -/

/-- A date and time of day, each field the number it stands for; the year from 0 to 9999 (R12, R95). -/
structure Civil where
  /-- second, 0 to 59 -/
  sec : Nat
  /-- minute, 0 to 59 -/
  min : Nat
  /-- hour, 0 to 23 -/
  hour : Nat
  /-- day of week, 1 Monday to 7 Sunday (R54) -/
  dow : Nat
  /-- day of the month, from 1 -/
  date : Nat
  /-- month, 1 to 12 -/
  month : Nat
  /-- four-digit year -/
  year : Nat
  deriving DecidableEq, Repr

/-- The Gregorian rule: "divisible by 4, and if divisible by 100 then also divisible by 400" (R95). -/
def Civil.leapYear (y : Nat) : Bool := decide (4 ∣ y) && (decide (¬ 100 ∣ y) || decide (400 ∣ y))

/-- The number of days of a month in a year (R87). -/
def Civil.monthDays (month year : Nat) : Nat :=
  if month = 2 then (if Civil.leapYear year then 29 else 28)
  else if month ∈ [4, 6, 9, 11] then 30 else 31

/-- The first instant of the next year keeps everything but the year; 9999 is followed by 0 (R93). -/
def Civil.nextYear (c : Civil) : Civil := { c with year := (c.year + 1) % 10000 }

/-- The month advances, and the year after December (R91). -/
def Civil.nextMonth (c : Civil) : Civil :=
  if c.month = 12 then { c.nextYear with month := 1 } else { c with month := c.month + 1 }

/-- The date advances, and the month after its last day (R90). -/
def Civil.nextDate (c : Civil) : Civil :=
  if c.date = Civil.monthDays c.month c.year then { c.nextMonth with date := 1 } else { c with date := c.date + 1 }

/-- The same time of the next day: date and day of week advance (R85, R86). -/
def Civil.nextDay (c : Civil) : Civil := { c.nextDate with dow := c.dow % 7 + 1 }

/-- The hour advances, and the day after 23 (R85). -/
def Civil.nextHour (c : Civil) : Civil :=
  if c.hour = 23 then { c.nextDay with hour := 0 } else { c with hour := c.hour + 1 }

/-- The minute advances, and the hour after 59 (R84). -/
def Civil.nextMinute (c : Civil) : Civil :=
  if c.min = 59 then { c.nextHour with min := 0 } else { c with min := c.min + 1 }

/-- The second advances, and the minute after 59 (R83). -/
def Civil.nextSecond (c : Civil) : Civil :=
  if c.sec = 59 then { c.nextMinute with sec := 0 } else { c with sec := c.sec + 1 }

/-- The civil time that the time registers hold (R12). -/
def State.civil (s : State) : Civil where
  sec := bcd2dec (s.reg 0)
  min := bcd2dec (s.reg 1)
  hour := bcd2dec (s.reg 2)
  dow := (s.reg 3).toNat
  date := bcd2dec (s.reg 4)
  month := bcd2dec (s.reg 5)
  year := 100 * bcd2dec (s.reg 7) + bcd2dec (s.reg 6)

/-! ### Runs -/

/-- The instructions of a list one after the other, up to the first that does not answer a next state. -/
def execAll : List Instr → State → Host.Outcome State Fault Refusal
  | [], s => .next s
  | i :: rest, s =>
    match exec i s with
    | .next t => execAll rest t
    | .fault r => .fault r
    | .refused r => .refused r

/-- An event of the environment with its canonical word (R46), the port `adc_raw` not constrained. -/
def eventInput (i : Instr) : Input :=
  { ev := (encode i).extractLsb' 8 3, din := (encode i).extractLsb' 0 8, adcRaw := none }

/-- The part of a state that is the block's own: the ports of the last operation and the environment's events left out (R10:
"Not state: ... the input ports and the pulse outputs"). -/
def State.block (s : State) : State :=
  { s with adcRaw := none, dout := none, status := none, adcStart := false, diagReq := false, inputs := [] }

/-- The instruction that performs an action (R58). -/
def Action.instr : Action → Instr
  | .alarmInt => .actAlarmInt
  | .diag => .actDiag
  | .alarmRst => .actAlarmRst
  | .toggle => .actToggle
  | .tempAssert => .actTempAssert
  | .timeInc => .actTimeInc
  | .tempDeassert => .actTempDeassert
  | .convDone => .actConvDone
  | .convStart => .convStart

/-- Executed in `s`, `i` performs the action `a`: it is that action, or an FG_STEP that chooses it (R70). -/
def State.performs (s : State) (i : Instr) (a : Action) : Bool :=
  decide (i = a.instr) || (decide (i = .fg) && decide (s.choose = some a))

/-- `m` is the register file of `s` with byte `v` at offset `a` and every other byte as before. -/
def State.storedIn (s : State) (m : Memory) (a : Nat) (v : Byte) : Prop :=
  ∀ b, m.read b = if b = a then v else s.reg b

end Sys2Proof.Machine
end

