-- ==== Sys2Proof/Laws/State.lean ====
section
/-! SUPPORT. What each named update of the state does to each field: one lemma per field per update, each true by `rfl`, so that
no later proof unfolds a record update. -/

namespace Sys2Proof.Machine

variable (s : State)

/-! ### setReg: `R[i] <- v` (00_scope.md R7) -/

@[simp] theorem State.setReg_mem (i : Nat) (v : Byte) : (s.setReg i v).mem = s.mem.write i v := rfl
@[simp] theorem State.setReg_phase (i : Nat) (v : Byte) : (s.setReg i v).phase = s.phase := rfl
@[simp] theorem State.setReg_af (i : Nat) (v : Byte) : (s.setReg i v).af = s.af := rfl
@[simp] theorem State.setReg_leap (i : Nat) (v : Byte) : (s.setReg i v).leap = s.leap := rfl
@[simp] theorem State.setReg_offset (i : Nat) (v : Byte) : (s.setReg i v).offset = s.offset := rfl
@[simp] theorem State.setReg_highRead (i : Nat) (v : Byte) : (s.setReg i v).highRead = s.highRead := rfl
@[simp] theorem State.setReg_intU (i : Nat) (v : Byte) : (s.setReg i v).intU = s.intU := rfl
@[simp] theorem State.setReg_intA1 (i : Nat) (v : Byte) : (s.setReg i v).intA1 = s.intA1 := rfl
@[simp] theorem State.setReg_intA2 (i : Nat) (v : Byte) : (s.setReg i v).intA2 = s.intA2 := rfl
@[simp] theorem State.setReg_intA3 (i : Nat) (v : Byte) : (s.setReg i v).intA3 = s.intA3 := rfl
@[simp] theorem State.setReg_trdyOut (i : Nat) (v : Byte) : (s.setReg i v).trdyOut = s.trdyOut := rfl
@[simp] theorem State.setReg_hzOut (i : Nat) (v : Byte) : (s.setReg i v).hzOut = s.hzOut := rfl
@[simp] theorem State.setReg_adcRaw (i : Nat) (v : Byte) : (s.setReg i v).adcRaw = s.adcRaw := rfl
@[simp] theorem State.setReg_dout (i : Nat) (v : Byte) : (s.setReg i v).dout = s.dout := rfl
@[simp] theorem State.setReg_status (i : Nat) (v : Byte) : (s.setReg i v).status = s.status := rfl
@[simp] theorem State.setReg_adcStart (i : Nat) (v : Byte) : (s.setReg i v).adcStart = s.adcStart := rfl
@[simp] theorem State.setReg_diagReq (i : Nat) (v : Byte) : (s.setReg i v).diagReq = s.diagReq := rfl
@[simp] theorem State.setReg_conf (i : Nat) (v : Byte) : (s.setReg i v).conf = s.conf := rfl
@[simp] theorem State.setReg_inputs (i : Nat) (v : Byte) : (s.setReg i v).inputs = s.inputs := rfl
@[simp] theorem State.setReg_freeCount (i : Nat) (v : Byte) : (s.setReg i v).freeCount = s.freeCount := rfl
@[simp] theorem State.setReg_marked (i : Nat) (v : Byte) : (s.setReg i v).marked = s.marked := rfl

/-! ### setFlag: a flag of `AF` is set (10_state.md R19) -/

@[simp] theorem State.setFlag_mem (i : Nat) : (s.setFlag i).mem = s.mem := rfl
@[simp] theorem State.setFlag_phase (i : Nat) : (s.setFlag i).phase = s.phase := rfl
@[simp] theorem State.setFlag_af (i : Nat) : (s.setFlag i).af = setBit s.af i true := rfl
@[simp] theorem State.setFlag_leap (i : Nat) : (s.setFlag i).leap = s.leap := rfl
@[simp] theorem State.setFlag_offset (i : Nat) : (s.setFlag i).offset = s.offset := rfl
@[simp] theorem State.setFlag_highRead (i : Nat) : (s.setFlag i).highRead = s.highRead := rfl
@[simp] theorem State.setFlag_intU (i : Nat) : (s.setFlag i).intU = s.intU := rfl
@[simp] theorem State.setFlag_intA1 (i : Nat) : (s.setFlag i).intA1 = s.intA1 := rfl
@[simp] theorem State.setFlag_intA2 (i : Nat) : (s.setFlag i).intA2 = s.intA2 := rfl
@[simp] theorem State.setFlag_intA3 (i : Nat) : (s.setFlag i).intA3 = s.intA3 := rfl
@[simp] theorem State.setFlag_trdyOut (i : Nat) : (s.setFlag i).trdyOut = s.trdyOut := rfl
@[simp] theorem State.setFlag_hzOut (i : Nat) : (s.setFlag i).hzOut = s.hzOut := rfl
@[simp] theorem State.setFlag_adcRaw (i : Nat) : (s.setFlag i).adcRaw = s.adcRaw := rfl
@[simp] theorem State.setFlag_dout (i : Nat) : (s.setFlag i).dout = s.dout := rfl
@[simp] theorem State.setFlag_status (i : Nat) : (s.setFlag i).status = s.status := rfl
@[simp] theorem State.setFlag_adcStart (i : Nat) : (s.setFlag i).adcStart = s.adcStart := rfl
@[simp] theorem State.setFlag_diagReq (i : Nat) : (s.setFlag i).diagReq = s.diagReq := rfl
@[simp] theorem State.setFlag_conf (i : Nat) : (s.setFlag i).conf = s.conf := rfl
@[simp] theorem State.setFlag_inputs (i : Nat) : (s.setFlag i).inputs = s.inputs := rfl
@[simp] theorem State.setFlag_freeCount (i : Nat) : (s.setFlag i).freeCount = s.freeCount := rfl
@[simp] theorem State.setFlag_marked (i : Nat) : (s.setFlag i).marked = s.marked := rfl

/-! ### spend: free values are used -/

@[simp] theorem State.spend_mem (k : Nat) : (s.spend k).mem = s.mem := rfl
@[simp] theorem State.spend_phase (k : Nat) : (s.spend k).phase = s.phase := rfl
@[simp] theorem State.spend_af (k : Nat) : (s.spend k).af = s.af := rfl
@[simp] theorem State.spend_leap (k : Nat) : (s.spend k).leap = s.leap := rfl
@[simp] theorem State.spend_offset (k : Nat) : (s.spend k).offset = s.offset := rfl
@[simp] theorem State.spend_highRead (k : Nat) : (s.spend k).highRead = s.highRead := rfl
@[simp] theorem State.spend_intU (k : Nat) : (s.spend k).intU = s.intU := rfl
@[simp] theorem State.spend_intA1 (k : Nat) : (s.spend k).intA1 = s.intA1 := rfl
@[simp] theorem State.spend_intA2 (k : Nat) : (s.spend k).intA2 = s.intA2 := rfl
@[simp] theorem State.spend_intA3 (k : Nat) : (s.spend k).intA3 = s.intA3 := rfl
@[simp] theorem State.spend_trdyOut (k : Nat) : (s.spend k).trdyOut = s.trdyOut := rfl
@[simp] theorem State.spend_hzOut (k : Nat) : (s.spend k).hzOut = s.hzOut := rfl
@[simp] theorem State.spend_adcRaw (k : Nat) : (s.spend k).adcRaw = s.adcRaw := rfl
@[simp] theorem State.spend_dout (k : Nat) : (s.spend k).dout = s.dout := rfl
@[simp] theorem State.spend_status (k : Nat) : (s.spend k).status = s.status := rfl
@[simp] theorem State.spend_adcStart (k : Nat) : (s.spend k).adcStart = s.adcStart := rfl
@[simp] theorem State.spend_diagReq (k : Nat) : (s.spend k).diagReq = s.diagReq := rfl
@[simp] theorem State.spend_conf (k : Nat) : (s.spend k).conf = s.conf := rfl
@[simp] theorem State.spend_inputs (k : Nat) : (s.spend k).inputs = s.inputs := rfl
@[simp] theorem State.spend_freeCount (k : Nat) : (s.spend k).freeCount = s.freeCount + k := rfl
@[simp] theorem State.spend_marked (k : Nat) : (s.spend k).marked = s.marked := rfl

/-! ### advancePhase: `PHASE` advances (40_scheduler.md R65) -/

@[simp] theorem State.advancePhase_mem : s.advancePhase.mem = s.mem := rfl
@[simp] theorem State.advancePhase_phase : s.advancePhase.phase = if s.phase + 1 = s.conf.ticks then 0 else s.phase + 1 := rfl
@[simp] theorem State.advancePhase_af : s.advancePhase.af = s.af := rfl
@[simp] theorem State.advancePhase_leap : s.advancePhase.leap = s.leap := rfl
@[simp] theorem State.advancePhase_offset : s.advancePhase.offset = s.offset := rfl
@[simp] theorem State.advancePhase_highRead : s.advancePhase.highRead = s.highRead := rfl
@[simp] theorem State.advancePhase_intU : s.advancePhase.intU = s.intU := rfl
@[simp] theorem State.advancePhase_intA1 : s.advancePhase.intA1 = s.intA1 := rfl
@[simp] theorem State.advancePhase_intA2 : s.advancePhase.intA2 = s.intA2 := rfl
@[simp] theorem State.advancePhase_intA3 : s.advancePhase.intA3 = s.intA3 := rfl
@[simp] theorem State.advancePhase_trdyOut : s.advancePhase.trdyOut = s.trdyOut := rfl
@[simp] theorem State.advancePhase_hzOut : s.advancePhase.hzOut = s.hzOut := rfl
@[simp] theorem State.advancePhase_adcRaw : s.advancePhase.adcRaw = s.adcRaw := rfl
@[simp] theorem State.advancePhase_dout : s.advancePhase.dout = s.dout := rfl
@[simp] theorem State.advancePhase_status : s.advancePhase.status = s.status := rfl
@[simp] theorem State.advancePhase_adcStart : s.advancePhase.adcStart = s.adcStart := rfl
@[simp] theorem State.advancePhase_diagReq : s.advancePhase.diagReq = s.diagReq := rfl
@[simp] theorem State.advancePhase_conf : s.advancePhase.conf = s.conf := rfl
@[simp] theorem State.advancePhase_inputs : s.advancePhase.inputs = s.inputs := rfl
@[simp] theorem State.advancePhase_freeCount : s.advancePhase.freeCount = s.freeCount := rfl
@[simp] theorem State.advancePhase_marked : s.advancePhase.marked = s.marked := rfl

/-! ### advanceOffset: `OFFSET` advances (44_bus_port.md R136) -/

@[simp] theorem State.advanceOffset_mem : s.advanceOffset.mem = s.mem := rfl
@[simp] theorem State.advanceOffset_phase : s.advanceOffset.phase = s.phase := rfl
@[simp] theorem State.advanceOffset_af : s.advanceOffset.af = s.af := rfl
@[simp] theorem State.advanceOffset_leap : s.advanceOffset.leap = s.leap := rfl
@[simp] theorem State.advanceOffset_offset : s.advanceOffset.offset = s.offset + 1 := rfl
@[simp] theorem State.advanceOffset_highRead : s.advanceOffset.highRead = s.highRead := rfl
@[simp] theorem State.advanceOffset_intU : s.advanceOffset.intU = s.intU := rfl
@[simp] theorem State.advanceOffset_intA1 : s.advanceOffset.intA1 = s.intA1 := rfl
@[simp] theorem State.advanceOffset_intA2 : s.advanceOffset.intA2 = s.intA2 := rfl
@[simp] theorem State.advanceOffset_intA3 : s.advanceOffset.intA3 = s.intA3 := rfl
@[simp] theorem State.advanceOffset_trdyOut : s.advanceOffset.trdyOut = s.trdyOut := rfl
@[simp] theorem State.advanceOffset_hzOut : s.advanceOffset.hzOut = s.hzOut := rfl
@[simp] theorem State.advanceOffset_adcRaw : s.advanceOffset.adcRaw = s.adcRaw := rfl
@[simp] theorem State.advanceOffset_dout : s.advanceOffset.dout = s.dout := rfl
@[simp] theorem State.advanceOffset_status : s.advanceOffset.status = s.status := rfl
@[simp] theorem State.advanceOffset_adcStart : s.advanceOffset.adcStart = s.adcStart := rfl
@[simp] theorem State.advanceOffset_diagReq : s.advanceOffset.diagReq = s.diagReq := rfl
@[simp] theorem State.advanceOffset_conf : s.advanceOffset.conf = s.conf := rfl
@[simp] theorem State.advanceOffset_inputs : s.advanceOffset.inputs = s.inputs := rfl
@[simp] theorem State.advanceOffset_freeCount : s.advanceOffset.freeCount = s.freeCount := rfl
@[simp] theorem State.advanceOffset_marked : s.advanceOffset.marked = s.marked := rfl

/-! ### finishWrite: the end of a BUS_WRITE (R136, R145) -/

@[simp] theorem State.finishWrite_mem : s.finishWrite.mem = s.mem := rfl
@[simp] theorem State.finishWrite_phase : s.finishWrite.phase = s.phase := rfl
@[simp] theorem State.finishWrite_af : s.finishWrite.af = s.af := rfl
@[simp] theorem State.finishWrite_leap : s.finishWrite.leap = s.leap := rfl
@[simp] theorem State.finishWrite_offset : s.finishWrite.offset = s.offset + 1 := rfl
@[simp] theorem State.finishWrite_highRead : s.finishWrite.highRead = s.highRead := rfl
@[simp] theorem State.finishWrite_intU : s.finishWrite.intU = s.intU := rfl
@[simp] theorem State.finishWrite_intA1 : s.finishWrite.intA1 = s.intA1 := rfl
@[simp] theorem State.finishWrite_intA2 : s.finishWrite.intA2 = s.intA2 := rfl
@[simp] theorem State.finishWrite_intA3 : s.finishWrite.intA3 = s.intA3 := rfl
@[simp] theorem State.finishWrite_trdyOut : s.finishWrite.trdyOut = s.trdyOut := rfl
@[simp] theorem State.finishWrite_hzOut : s.finishWrite.hzOut = s.hzOut := rfl
@[simp] theorem State.finishWrite_adcRaw : s.finishWrite.adcRaw = s.adcRaw := rfl
@[simp] theorem State.finishWrite_dout : s.finishWrite.dout = s.dout := rfl
@[simp] theorem State.finishWrite_status : s.finishWrite.status = some true := rfl
@[simp] theorem State.finishWrite_adcStart : s.finishWrite.adcStart = s.adcStart := rfl
@[simp] theorem State.finishWrite_diagReq : s.finishWrite.diagReq = s.diagReq := rfl
@[simp] theorem State.finishWrite_conf : s.finishWrite.conf = s.conf := rfl
@[simp] theorem State.finishWrite_inputs : s.finishWrite.inputs = s.inputs := rfl
@[simp] theorem State.finishWrite_freeCount : s.finishWrite.freeCount = s.freeCount := rfl
@[simp] theorem State.finishWrite_marked : s.finishWrite.marked = s.marked := rfl

/-! ### finishRead: the end of a BUS_READ (R146) -/

@[simp] theorem State.finishRead_mem (v : Byte) : (s.finishRead v).mem = s.mem := rfl
@[simp] theorem State.finishRead_phase (v : Byte) : (s.finishRead v).phase = s.phase := rfl
@[simp] theorem State.finishRead_af (v : Byte) : (s.finishRead v).af = s.af := rfl
@[simp] theorem State.finishRead_leap (v : Byte) : (s.finishRead v).leap = s.leap := rfl
@[simp] theorem State.finishRead_offset (v : Byte) : (s.finishRead v).offset = s.offset + 1 := rfl
@[simp] theorem State.finishRead_highRead (v : Byte) : (s.finishRead v).highRead = s.highRead := rfl
@[simp] theorem State.finishRead_intU (v : Byte) : (s.finishRead v).intU = s.intU := rfl
@[simp] theorem State.finishRead_intA1 (v : Byte) : (s.finishRead v).intA1 = s.intA1 := rfl
@[simp] theorem State.finishRead_intA2 (v : Byte) : (s.finishRead v).intA2 = s.intA2 := rfl
@[simp] theorem State.finishRead_intA3 (v : Byte) : (s.finishRead v).intA3 = s.intA3 := rfl
@[simp] theorem State.finishRead_trdyOut (v : Byte) : (s.finishRead v).trdyOut = s.trdyOut := rfl
@[simp] theorem State.finishRead_hzOut (v : Byte) : (s.finishRead v).hzOut = s.hzOut := rfl
@[simp] theorem State.finishRead_adcRaw (v : Byte) : (s.finishRead v).adcRaw = s.adcRaw := rfl
@[simp] theorem State.finishRead_dout (v : Byte) : (s.finishRead v).dout = some v := rfl
@[simp] theorem State.finishRead_status (v : Byte) : (s.finishRead v).status = s.status := rfl
@[simp] theorem State.finishRead_adcStart (v : Byte) : (s.finishRead v).adcStart = s.adcStart := rfl
@[simp] theorem State.finishRead_diagReq (v : Byte) : (s.finishRead v).diagReq = s.diagReq := rfl
@[simp] theorem State.finishRead_conf (v : Byte) : (s.finishRead v).conf = s.conf := rfl
@[simp] theorem State.finishRead_inputs (v : Byte) : (s.finishRead v).inputs = s.inputs := rfl
@[simp] theorem State.finishRead_freeCount (v : Byte) : (s.finishRead v).freeCount = s.freeCount := rfl
@[simp] theorem State.finishRead_marked (v : Byte) : (s.finishRead v).marked = s.marked := rfl

/-! ### begin: the next operation begins (30_encoding.md R45) -/

@[simp] theorem State.begin_mem : s.begin.mem = s.mem := rfl
@[simp] theorem State.begin_phase : s.begin.phase = s.phase := rfl
@[simp] theorem State.begin_af : s.begin.af = s.af := rfl
@[simp] theorem State.begin_leap : s.begin.leap = s.leap := rfl
@[simp] theorem State.begin_offset : s.begin.offset = s.offset := rfl
@[simp] theorem State.begin_highRead : s.begin.highRead = s.highRead := rfl
@[simp] theorem State.begin_intU : s.begin.intU = s.intU := rfl
@[simp] theorem State.begin_intA1 : s.begin.intA1 = s.intA1 := rfl
@[simp] theorem State.begin_intA2 : s.begin.intA2 = s.intA2 := rfl
@[simp] theorem State.begin_intA3 : s.begin.intA3 = s.intA3 := rfl
@[simp] theorem State.begin_trdyOut : s.begin.trdyOut = s.trdyOut := rfl
@[simp] theorem State.begin_hzOut : s.begin.hzOut = s.hzOut := rfl
@[simp] theorem State.begin_adcRaw : s.begin.adcRaw = s.nextInput.adcRaw := rfl
@[simp] theorem State.begin_dout : s.begin.dout = none := rfl
@[simp] theorem State.begin_status : s.begin.status = none := rfl
@[simp] theorem State.begin_adcStart : s.begin.adcStart = false := rfl
@[simp] theorem State.begin_diagReq : s.begin.diagReq = false := rfl
@[simp] theorem State.begin_conf : s.begin.conf = s.conf := rfl
@[simp] theorem State.begin_inputs : s.begin.inputs = s.inputs.tail := rfl
@[simp] theorem State.begin_freeCount : s.begin.freeCount = s.freeCount := rfl
@[simp] theorem State.begin_marked : s.begin.marked = s.marked := rfl

/-! ### present: an event is applied next -/

@[simp] theorem State.present_mem (w : EventWord) : (s.present w).mem = s.mem := rfl
@[simp] theorem State.present_phase (w : EventWord) : (s.present w).phase = s.phase := rfl
@[simp] theorem State.present_af (w : EventWord) : (s.present w).af = s.af := rfl
@[simp] theorem State.present_leap (w : EventWord) : (s.present w).leap = s.leap := rfl
@[simp] theorem State.present_offset (w : EventWord) : (s.present w).offset = s.offset := rfl
@[simp] theorem State.present_highRead (w : EventWord) : (s.present w).highRead = s.highRead := rfl
@[simp] theorem State.present_intU (w : EventWord) : (s.present w).intU = s.intU := rfl
@[simp] theorem State.present_intA1 (w : EventWord) : (s.present w).intA1 = s.intA1 := rfl
@[simp] theorem State.present_intA2 (w : EventWord) : (s.present w).intA2 = s.intA2 := rfl
@[simp] theorem State.present_intA3 (w : EventWord) : (s.present w).intA3 = s.intA3 := rfl
@[simp] theorem State.present_trdyOut (w : EventWord) : (s.present w).trdyOut = s.trdyOut := rfl
@[simp] theorem State.present_hzOut (w : EventWord) : (s.present w).hzOut = s.hzOut := rfl
@[simp] theorem State.present_adcRaw (w : EventWord) : (s.present w).adcRaw = s.adcRaw := rfl
@[simp] theorem State.present_dout (w : EventWord) : (s.present w).dout = s.dout := rfl
@[simp] theorem State.present_status (w : EventWord) : (s.present w).status = s.status := rfl
@[simp] theorem State.present_adcStart (w : EventWord) : (s.present w).adcStart = s.adcStart := rfl
@[simp] theorem State.present_diagReq (w : EventWord) : (s.present w).diagReq = s.diagReq := rfl
@[simp] theorem State.present_conf (w : EventWord) : (s.present w).conf = s.conf := rfl
@[simp] theorem State.present_inputs (w : EventWord) : (s.present w).inputs = { ev := w.extractLsb' 8 3, din := w.extractLsb' 0 8, adcRaw := none } :: s.inputs := rfl
@[simp] theorem State.present_freeCount (w : EventWord) : (s.present w).freeCount = s.freeCount := rfl
@[simp] theorem State.present_marked (w : EventWord) : (s.present w).marked = s.marked := rfl

end Sys2Proof.Machine
end

