-- ==== Sys2Proof/Laws/Memory.lean ====
section
/-! SUPPORT. The register file as memory: what a read after a write gives, and that every memory operation keeps the canonical
form. The two laws `read_write` and `wf_write` are what other files cite. -/

namespace Sys2Proof.Machine

/-! ### Reads -/

@[simp] theorem Memory.read_nil (a : Nat) : Memory.read [] a = Memory.unlisted a := rfl

theorem Memory.read_cons (k : Nat) (v : Byte) (t : Memory) (a : Nat) :
    Memory.read ((k, v) :: t) a = if k = a then v else Memory.read t a := rfl

theorem Memory.read_forget (m : Memory) (a b : Nat) :
    (m.forget a).read b = if b = a then Memory.unlisted a else m.read b := by
  induction m with
  | nil => by_cases h : b = a <;> simp [Memory.forget, h]
  | cons c t ih =>
    obtain ⟨k, v⟩ := c
    rw [Memory.read_cons]
    by_cases hk : k = a
    · have hf : Memory.forget ((k, v) :: t) a = Memory.forget t a := by simp [Memory.forget, hk]
      rw [hf, ih]
      by_cases hb : b = a
      · simp [hb]
      · have : k ≠ b := by omega
        simp [hb, this]
    · have hf : Memory.forget ((k, v) :: t) a = (k, v) :: Memory.forget t a := by simp [Memory.forget, hk]
      rw [hf, Memory.read_cons, ih]
      by_cases hkb : k = b
      · have : b ≠ a := by omega
        simp [hkb, this]
      · simp [hkb]

theorem Memory.not_mem_forget (m : Memory) (a : Nat) : ∀ c ∈ m.forget a, c.1 ≠ a := by
  intro c hc
  simpa [Memory.forget] using (List.mem_filter.mp hc).2

theorem Memory.read_place (m : Memory) (a : Nat) (v : Byte) (b : Nat) (h : ∀ c ∈ m, c.1 ≠ a) :
    (m.place a v).read b = if b = a then v else m.read b := by
  induction m with
  | nil => simp [Memory.place, Memory.read_cons, eq_comm]
  | cons c t ih =>
    obtain ⟨k, x⟩ := c
    have hk : k ≠ a := h (k, x) (by simp)
    have ht := ih (fun c hc => h c (by simp [hc]))
    unfold Memory.place
    split
    · simp [Memory.read_cons, eq_comm]
    · rw [Memory.read_cons, Memory.read_cons, ht]
      by_cases hkb : k = b
      · have : b ≠ a := by omega
        simp [hkb, this]
      · simp [hkb]

/-- Everything a write does to a read. -/
theorem Memory.read_write (m : Memory) (a : Nat) (v : Byte) (b : Nat) :
    (m.write a v).read b = if b = a then v else m.read b := by
  unfold Memory.write
  split
  · next hv => rw [Memory.read_forget, hv]
  · rw [Memory.read_place _ _ _ _ (Memory.not_mem_forget m a), Memory.read_forget]
    by_cases hb : b = a <;> simp [hb]

@[simp] theorem State.reg_setReg (s : State) (i : Nat) (v : Byte) (j : Nat) :
    (s.setReg i v).reg j = if j = i then v else s.reg j := Memory.read_write s.mem i v j

theorem State.reg_of_mem_eq {s t : State} (h : t.mem = s.mem) (a : Nat) : t.reg a = s.reg a := by
  unfold State.reg; rw [h]

/-! ### The canonical form -/

theorem Memory.wfFrom_cons {lo k : Nat} {v : Byte} {t : Memory} :
    Memory.wfFrom lo ((k, v) :: t) = true ↔
      lo ≤ k ∧ k ≤ 30 ∧ v ≠ Memory.unlisted k ∧ Memory.wfFrom (k + 1) t = true := by
  simp [Memory.wfFrom, and_assoc]

theorem Memory.wfFrom_mono {lo lo' : Nat} (h : lo' ≤ lo) {m : Memory} (hm : Memory.wfFrom lo m = true) :
    Memory.wfFrom lo' m = true := by
  cases m with
  | nil => rfl
  | cons c t =>
    obtain ⟨k, v⟩ := c
    rw [Memory.wfFrom_cons] at hm ⊢
    exact ⟨h.trans hm.1, hm.2⟩

theorem Memory.wfFrom_forget {lo : Nat} {m : Memory} (a : Nat) (hm : Memory.wfFrom lo m = true) :
    Memory.wfFrom lo (m.forget a) = true := by
  induction m generalizing lo with
  | nil => rfl
  | cons c t ih =>
    obtain ⟨k, v⟩ := c
    rw [Memory.wfFrom_cons] at hm
    obtain ⟨h1, h2, h3, h4⟩ := hm
    by_cases hk : k = a
    · have hf : Memory.forget ((k, v) :: t) a = Memory.forget t a := by simp [Memory.forget, hk]
      rw [hf]
      exact Memory.wfFrom_mono (by omega) (ih h4)
    · have hf : Memory.forget ((k, v) :: t) a = (k, v) :: Memory.forget t a := by simp [Memory.forget, hk]
      rw [hf, Memory.wfFrom_cons]
      exact ⟨h1, h2, h3, ih h4⟩

theorem Memory.wfFrom_place {lo a : Nat} {v : Byte} {m : Memory} (hm : Memory.wfFrom lo m = true) (ha : lo ≤ a)
    (ha' : a ≤ 30) (hv : v ≠ Memory.unlisted a) (hne : ∀ c ∈ m, c.1 ≠ a) : Memory.wfFrom lo (m.place a v) = true := by
  induction m generalizing lo with
  | nil => simp [Memory.place, Memory.wfFrom, ha, ha', hv]
  | cons c t ih =>
    obtain ⟨k, x⟩ := c
    have hk : k ≠ a := hne (k, x) (by simp)
    rw [Memory.wfFrom_cons] at hm
    obtain ⟨h1, h2, h3, h4⟩ := hm
    unfold Memory.place
    split
    · next hlt =>
      rw [Memory.wfFrom_cons, Memory.wfFrom_cons]
      exact ⟨ha, ha', hv, by omega, h2, h3, h4⟩
    · next hge =>
      rw [Memory.wfFrom_cons]
      exact ⟨h1, h2, h3, ih h4 (by omega) (fun c hc => hne c (by simp [hc]))⟩

/-- A write to an offset that holds a register keeps the canonical form. -/
theorem Memory.wf_write {m : Memory} (hm : m.wf = true) {a : Nat} (ha : a ≤ 30) (v : Byte) : (m.write a v).wf = true := by
  unfold Memory.write Memory.wf
  split
  · exact Memory.wfFrom_forget a hm
  · next hv =>
    exact Memory.wfFrom_place (Memory.wfFrom_forget a hm) (Nat.zero_le a) ha hv (Memory.not_mem_forget m a)

theorem State.wf_setReg {s : State} (h : s.mem.wf = true) {i : Nat} (hi : i ≤ 30) (v : Byte) :
    (s.setReg i v).mem.wf = true := Memory.wf_write h hi v

/-- The register file right after reset has the canonical form. -/
theorem Memory.wf_reset : State.reset.mem.wf = true := rfl

/-- In the canonical form an offset below every listed one reads as unlisted. -/
theorem Memory.read_of_lt_wfFrom {lo : Nat} {m : Memory} (hm : Memory.wfFrom lo m = true) {a : Nat} (ha : a < lo) :
    m.read a = Memory.unlisted a := by
  induction m generalizing lo with
  | nil => rfl
  | cons c t ih =>
    obtain ⟨k, v⟩ := c
    rw [Memory.wfFrom_cons] at hm
    have hka : k ≠ a := by omega
    rw [Memory.read_cons, if_neg hka]
    exact ih hm.2.2.2 (by omega)

/-- Offsets that hold no register read as 0x00 (20_memory.md R44). -/
theorem Memory.read_of_no_register {m : Memory} (hm : m.wf = true) {a : Nat} (ha : 30 < a) : m.read a = 0 := by
  have key : ∀ (t : Memory) (lo : Nat), Memory.wfFrom lo t = true → t.read a = Memory.unlisted a := by
    intro t
    induction t with
    | nil => intro _ _; rfl
    | cons c t ih =>
      obtain ⟨k, v⟩ := c
      intro lo h
      rw [Memory.wfFrom_cons] at h
      have hka : k ≠ a := by omega
      rw [Memory.read_cons, if_neg hka]
      exact ih _ h.2.2.2
  rw [key m 0 hm]
  unfold Memory.unlisted
  split <;> first | omega | rfl

end Sys2Proof.Machine
end

