-- ==== Sys2Proof/Laws/Bcd.lean ====
section
/-! SUPPORT. Packed BCD: encoding a number below 100 and decoding it again, and what `bcd_step` answers in decimal. -/

namespace Sys2Proof.Machine

theorem bcd2dec_dec2bcd : ∀ d < 100, bcd2dec (dec2bcd d) = d := by decide

theorem isBcd_dec2bcd : ∀ d < 100, isBcd (dec2bcd d) = true := by decide

theorem isBcd_iff {b : Byte} : isBcd b = true ↔ tens b ≤ 9 ∧ ones b ≤ 9 := by simp [isBcd]

theorem bcd2dec_lt_of_isBcd {b : Byte} (h : isBcd b = true) : bcd2dec b < 100 := by
  have := isBcd_iff.mp h
  unfold bcd2dec; omega

theorem bcdIn_iff {b : Byte} {lo hi : Nat} : bcdIn b lo hi = true ↔ isBcd b = true ∧ lo ≤ bcd2dec b ∧ bcd2dec b < hi := by
  simp [bcdIn, and_assoc]

/-- `bcd_step` below its limit: the next number, without a carry (41_calendar.md R80). -/
theorem bcdStep_of_ne {b : Byte} {limit first : Nat} (h : bcd2dec b + 1 ≠ limit) :
    bcdStep b limit first = (dec2bcd (bcd2dec b + 1), false) := by simp [bcdStep, h]

/-- `bcd_step` at its limit: the first value, with a carry (R80). -/
theorem bcdStep_of_eq {b : Byte} {limit first : Nat} (h : bcd2dec b + 1 = limit) :
    bcdStep b limit first = (dec2bcd first, true) := by simp [bcdStep, h]

/-- What `bcd_step` answers on its domain: a valid byte of the field, and in decimal the successor or the first value. -/
theorem bcdStep_spec {b : Byte} {limit first : Nat} (hb : isBcd b = true) (hv : bcd2dec b < limit) (hl : limit ≤ 100)
    (hf : first < limit) :
    isBcd (bcdStep b limit first).1 = true ∧
      bcd2dec (bcdStep b limit first).1 = (if bcd2dec b + 1 = limit then first else bcd2dec b + 1) ∧
      (bcdStep b limit first).2 = decide (bcd2dec b + 1 = limit) := by
  have _ := hb
  by_cases h : bcd2dec b + 1 = limit
  · rw [bcdStep_of_eq h]
    exact ⟨isBcd_dec2bcd _ (by omega), by simp [h, bcd2dec_dec2bcd first (by omega)], by simp [h]⟩
  · rw [bcdStep_of_ne h]
    exact ⟨isBcd_dec2bcd _ (by omega), by simp [h, bcd2dec_dec2bcd _ (by omega : bcd2dec b + 1 < 100)], by simp [h]⟩

end Sys2Proof.Machine
end

