-- ==== Sys2Proof/Laws/Operations.lean ====
section
/-! SUPPORT. One lemma per shared operation that says everything it can do; later proofs cite it instead of unfolding. -/

namespace Sys2Proof.Machine

/-! ### Bits -/

theorem getLsbD_setBit (b : Byte) (i j : Nat) (v : Bool) :
    (setBit b i v).getLsbD j = if j = i ∧ i < 8 then v else b.getLsbD j := by
  unfold setBit
  by_cases hj : j < 8
  · cases v <;>
      simp only [Bool.false_eq_true, if_false, if_true, BitVec.getLsbD_and, BitVec.getLsbD_or, BitVec.getLsbD_not,
        BitVec.getLsbD_shiftLeft, BitVec.getLsbD_one] <;>
      by_cases h : j = i
    · subst h; simp [hj]
    · by_cases h1 : j < i
      · simp [h, h1, hj]
      · have : j - i ≠ 0 := by omega
        simp [h, this, hj]
    · subst h; simp [hj]
    · by_cases h1 : j < i
      · simp [h, h1]
      · have : j - i ≠ 0 := by omega
        simp [h, this]
  · have h2 : ¬ (j = i ∧ i < 8) := by omega
    rw [if_neg h2, BitVec.getLsbD_of_ge b j (by omega)]
    exact BitVec.getLsbD_of_ge _ j (by omega)

/-- `cfg_guard`: `RDY` is kept or cleared, every other bit is the one sent (44_bus_port.md R141). -/
theorem getLsbD_cfgGuard (c : Config) (old b : Byte) (j : Nat) :
    (cfgGuard c old b).getLsbD j =
      if j = c.rdyBit.val then old.getLsbD j && b.getLsbD j else b.getLsbD j := by
  unfold cfgGuard
  have hlt := c.rdyBit.isLt
  split
  · next h => by_cases hj : j = c.rdyBit.val <;> simp only [hj, h, if_true, if_false, Bool.true_and]
  · next h =>
    rw [getLsbD_setBit]
    by_cases hj : j = c.rdyBit.val
    · subst hj; simp only [true_and, hlt, if_true, Bool.eq_false_iff.mpr h, Bool.false_and]
    · simp only [hj, false_and, if_false]

/-- `aif_guard`: bits 5 to 0 stay or clear, bits 7 and 6 are the ones sent (R143). -/
theorem getLsbD_aifGuard (old b : Byte) (j : Nat) (hj : j < 8) :
    (aifGuard old b).getLsbD j = if j < 6 then old.getLsbD j && b.getLsbD j else b.getLsbD j := by
  unfold aifGuard
  have : j = 0 ∨ j = 1 ∨ j = 2 ∨ j = 3 ∨ j = 4 ∨ j = 5 ∨ j = 6 ∨ j = 7 := by omega
  rcases this with h | h | h | h | h | h | h | h <;> subst h <;> simp [Bool.and_comm]

/-! ### The flag request of a tick -/

/-- The bit of `AF` that a tick with phase number `k` requests (30_encoding.md R56). -/
def phaseMask (c : Config) (k : Nat) : Byte :=
  match k with
  | 2 => 0x01
  | 4 => if c.diagEn then 0x02 else 0x00
  | 6 => 0x04
  | 8 => 0x08
  | 10 => 0x10
  | 12 => 0x20
  | 14 => 0x40
  | 16 => 0x08
  | _ => 0x00

/-- A tick's request sets the one bit of its phase number, and nothing else. -/
theorem State.requestFlag_eq (s : State) (k : Nat) : s.requestFlag k = { s with af := s.af ||| phaseMask s.conf k } := by
  unfold phaseMask
  split
  case h_2 => cases h : s.conf.diagEn <;> simp [State.requestFlag, State.setFlag, setBit, h]
  case h_9 h2 h4 h6 h8 h10 h12 h14 h16 =>
    rw [State.requestFlag, if_neg h2, if_neg h4, if_neg h6, if_neg h8, if_neg h10, if_neg h12, if_neg h14, if_neg h16]
    simp
  all_goals simp [State.requestFlag, State.setFlag, setBit]

theorem ticks_eq (c : Config) : c.ticks = 8 ∨ c.ticks = 16 := by
  unfold Config.ticks CycleLength.ticks
  split <;> simp

/-! ### Leap indicator and comparator -/

/-- `check_leap_year` writes `LEAP` alone, and counts the free bit it uses where the year is not valid BCD (41_calendar.md
R95). -/
theorem State.checkLeapYear_eq (s : State) :
    s.checkLeapYear =
      { s with
        leap := if isBcd (s.reg 7) && isBcd (s.reg 6) then isLeap (s.reg 7) (s.reg 6) else Config.freeBit s.freeCount
        freeCount := if isBcd (s.reg 7) && isBcd (s.reg 6) then s.freeCount else s.freeCount + 1 } := by
  unfold State.checkLeapYear State.spend
  split <;> rfl

@[simp] theorem State.checkLeapYear_mem (s : State) : s.checkLeapYear.mem = s.mem := by rw [State.checkLeapYear_eq]

@[simp] theorem State.checkLeapYear_reg (s : State) (a : Nat) : s.checkLeapYear.reg a = s.reg a :=
  State.reg_of_mem_eq (State.checkLeapYear_mem s) a

/-- `check_alarms` writes `R[30]` alone (42_alarm.md R106). -/
theorem State.checkAlarms_eq (s : State) : s.checkAlarms = { s with mem := s.mem.write 30 (s.reg 30 ||| s.alarmMatches) } := rfl

theorem State.checkAlarms_reg (s : State) (a : Nat) :
    s.checkAlarms.reg a = if a = 30 then s.reg 30 ||| s.alarmMatches else s.reg a := State.reg_setReg _ _ _ _

/-! ### What an ACT_TIME_INC may change -/

/-- `t` differs from `s` at most in the time registers, `AIF`, `LEAP` and the model's own counter and mark. -/
def State.CalFrame (s t : State) : Prop :=
  (∃ m l f k, t = { s with mem := m, leap := l, freeCount := f, marked := k }) ∧
    (∀ a, 8 ≤ a → a ≠ 30 → t.reg a = s.reg a) ∧ (s.mem.wf = true → t.mem.wf = true)

theorem State.CalFrame.refl (s : State) : s.CalFrame s :=
  ⟨⟨s.mem, s.leap, s.freeCount, s.marked, rfl⟩, fun _ _ _ => rfl, id⟩

theorem State.CalFrame.trans {s t u : State} (h : s.CalFrame t) (h' : t.CalFrame u) : s.CalFrame u := by
  obtain ⟨⟨m, l, f, k, rfl⟩, hr, hw⟩ := h
  obtain ⟨⟨m', l', f', k', rfl⟩, hr', hw'⟩ := h'
  exact ⟨⟨m', l', f', k', rfl⟩, fun a h1 h2 => (hr' a h1 h2).trans (hr a h1 h2), fun w => hw' (hw w)⟩

theorem State.calFrame_setReg (s : State) {i : Nat} (hi : i ≤ 7 ∨ i = 30) (v : Byte) : s.CalFrame (s.setReg i v) := by
  refine ⟨⟨s.mem.write i v, s.leap, s.freeCount, s.marked, rfl⟩, fun a h1 h2 => ?_, fun h => State.wf_setReg h (by omega) v⟩
  have : a ≠ i := by omega
  simp [this]

theorem State.calFrame_checkLeapYear (s : State) : s.CalFrame s.checkLeapYear := by
  rw [State.checkLeapYear_eq]
  exact ⟨⟨s.mem, _, _, s.marked, rfl⟩, fun _ _ _ => rfl, id⟩

theorem State.calFrame_checkAlarms (s : State) : s.CalFrame s.checkAlarms := State.calFrame_setReg s (.inr rfl) _

theorem State.calFrame_freeLastFields (s : State) (k : Nat) : s.CalFrame (s.freeLastFields k) := by
  induction k generalizing s with
  | zero => exact .refl s
  | succ k ih => exact (State.calFrame_setReg s (.inl (by omega)) _).trans (ih _)

/-- The rest of an operation outside its domain changes what an ACT_TIME_INC may change, and nothing else. -/
theorem State.calFrame_unspecifiedFrom (s : State) (j : Nat) : s.CalFrame (s.unspecifiedFrom j) := by
  have h := (State.calFrame_freeLastFields s (8 - j)).trans
    (State.calFrame_setReg _ (.inr rfl) ((s.freeLastFields (8 - j)).reg 30 ||| (Config.freeByte (s.freeCount + 8) &&& 0x3F)))
  exact h.trans ⟨⟨_, _, _, _, rfl⟩, fun _ _ _ => rfl, id⟩

/-- On a valid calendar every stage that is reached finds its field in its domain. -/
theorem State.reachedInDomain_of_calValid {s : State} (h : s.calValid = true) : s.reachedInDomain = true := by
  simp only [State.calValid, Bool.and_eq_true, decide_eq_true_eq] at h
  obtain ⟨⟨⟨⟨⟨⟨⟨⟨h0, h1⟩, h2⟩, h3⟩, h3'⟩, h4⟩, h6⟩, h7⟩, -⟩ := h
  simp [State.reachedInDomain, h0, h1, h2, h3, h3', h4, h6, h7]

/-! ### The foreground step -/

/-- FG_STEP, once and for all: nothing chosen and nothing changed, or a chosen action performed with its flag cleared. -/
theorem State.fgStep_cases (s : State) :
    (s.choose = none ∧ s.fgStep = s) ∨ ∃ a, s.choose = some a ∧ s.fgStep = (s.spendChoice.clearFlag a).perform a := by
  unfold State.fgStep
  cases h : s.choose with
  | none => exact .inl ⟨rfl, rfl⟩
  | some a => exact .inr ⟨a, rfl, rfl⟩

/-- What is chosen is pending, in either order (40_scheduler.md R71). -/
theorem State.pending_of_choose {s : State} {a : Action} (h : s.choose = some a) : a ∈ s.pending := by
  unfold State.choose at h
  split at h
  · exact List.mem_of_mem_head? h
  · exact List.mem_of_getElem? h

theorem State.mem_pending {s : State} {a : Action} : a ∈ s.pending ↔ s.isPending a = true := by
  unfold State.pending
  rw [List.mem_filter]
  exact ⟨fun h => h.2, fun h => ⟨by cases a <;> decide, h⟩⟩

theorem State.spendChoice_eq (s : State) :
    s.spendChoice = { s with freeCount := if s.conf.fgOrder = .any then s.freeCount + 1 else s.freeCount } := by
  unfold State.spendChoice
  split <;> next h => simp [h, State.spend]

theorem State.clearFlag_eq (s : State) (a : Action) :
    s.clearFlag a = { s with af := if a = .convStart then s.af else setBit s.af a.index false } := by
  cases a <;> rfl

/-! ### The step -/

/-- A step is the decoded event, executed in the state with the ports of the new operation (30_encoding.md R45). -/
theorem step_eq (s : State) : step s = exec (decode s.nextInput.word) s.begin := rfl

/-- Every event word decodes to a well-formed instruction (R47). -/
theorem decode_wf (w : EventWord) : (decode w).wf = true := by
  unfold decode
  split <;> rfl

end Sys2Proof.Machine
end

