-- ==== Sys2Proof/Laws/PerInstr.lean ====
section
/-! SUPPORT. Statements about every instruction as syntax, one lemma per constructor of `Instr`. -/

namespace Sys2Proof.Laws.EncodeKind

/-- Decoding the event word of an instruction gives a well-formed instruction, and gives the instruction itself exactly when
it is an event; a row inside the block gives the event of the operation it is a line of (30_encoding.md R46, R47, R64). -/
def Statement (i : Instr) : Prop := (decode (encode i)).wf = true ∧ (i.wf = true ↔ decode (encode i) = i)

theorem din_eventWord (ev : BitVec 3) (b : Byte) : eventDin (eventWord ev b) = b := by
  unfold eventDin eventWord
  ext i hi
  rw [BitVec.getElem_extractLsb', Nat.zero_add, BitVec.getLsbD_append]
  simp [hi]

theorem decode_setoff (b : Byte) : decode (eventWord 0b100 b) = .setoff b := by
  have h10 : (eventWord 0b100 b).getLsbD 10 = true := by unfold eventWord; rw [BitVec.getLsbD_append]; rfl
  have h9 : (eventWord 0b100 b).getLsbD 9 = false := by unfold eventWord; rw [BitVec.getLsbD_append]; rfl
  have h8 : (eventWord 0b100 b).getLsbD 8 = false := by unfold eventWord; rw [BitVec.getLsbD_append]; rfl
  simp only [decode, h10, h9, h8, din_eventWord]

theorem decode_wr (b : Byte) : decode (eventWord 0b101 b) = .wr b := by
  have h10 : (eventWord 0b101 b).getLsbD 10 = true := by unfold eventWord; rw [BitVec.getLsbD_append]; rfl
  have h9 : (eventWord 0b101 b).getLsbD 9 = false := by unfold eventWord; rw [BitVec.getLsbD_append]; rfl
  have h8 : (eventWord 0b101 b).getLsbD 8 = true := by unfold eventWord; rw [BitVec.getLsbD_append]; rfl
  simp only [decode, h10, h9, h8, din_eventWord]

theorem nop : Statement .nop := ⟨Machine.decode_wf _, by decide⟩

theorem tick : Statement .tick := ⟨Machine.decode_wf _, by decide⟩

theorem adc : Statement .adc := ⟨Machine.decode_wf _, by decide⟩

theorem fg : Statement .fg := ⟨Machine.decode_wf _, by decide⟩

theorem setoff (b : Byte) : Statement (.setoff b) := by
  have h : decode (encode (.setoff b)) = .setoff b := decode_setoff b
  exact ⟨Machine.decode_wf _, by rw [h]; simp [Instr.wf]⟩

theorem wr (b : Byte) : Statement (.wr b) := by
  have h : decode (encode (.wr b)) = .wr b := decode_wr b
  exact ⟨Machine.decode_wf _, by rw [h]; simp [Instr.wf]⟩

theorem rd : Statement .rd := ⟨Machine.decode_wf _, by decide⟩

theorem reset : Statement .reset := ⟨Machine.decode_wf _, by decide⟩

theorem phAlarmInt : Statement .phAlarmInt := ⟨Machine.decode_wf _, by decide⟩

theorem phDiag : Statement .phDiag := ⟨Machine.decode_wf _, by decide⟩

theorem phAlarmRst : Statement .phAlarmRst := ⟨Machine.decode_wf _, by decide⟩

theorem phToggleMid : Statement .phToggleMid := ⟨Machine.decode_wf _, by decide⟩

theorem phTempAssert : Statement .phTempAssert := ⟨Machine.decode_wf _, by decide⟩

theorem phTimeInc : Statement .phTimeInc := ⟨Machine.decode_wf _, by decide⟩

theorem phTempDeassert : Statement .phTempDeassert := ⟨Machine.decode_wf _, by decide⟩

theorem phToggleEnd : Statement .phToggleEnd := ⟨Machine.decode_wf _, by decide⟩

theorem actAlarmInt : Statement .actAlarmInt := ⟨Machine.decode_wf _, by decide⟩

theorem actDiag : Statement .actDiag := ⟨Machine.decode_wf _, by decide⟩

theorem actAlarmRst : Statement .actAlarmRst := ⟨Machine.decode_wf _, by decide⟩

theorem actToggle : Statement .actToggle := ⟨Machine.decode_wf _, by decide⟩

theorem actTempAssert : Statement .actTempAssert := ⟨Machine.decode_wf _, by decide⟩

theorem actTimeInc : Statement .actTimeInc := ⟨Machine.decode_wf _, by decide⟩

theorem actTempDeassert : Statement .actTempDeassert := ⟨Machine.decode_wf _, by decide⟩

theorem actConvDone : Statement .actConvDone := ⟨Machine.decode_wf _, by decide⟩

theorem convStart : Statement .convStart := ⟨Machine.decode_wf _, by decide⟩

theorem wrTime (b : Byte) : Statement (.wrTime b) := by
  have h : decode (encode (.wrTime b)) = .wr b := decode_wr b
  exact ⟨Machine.decode_wf _, by rw [h]; simp [Instr.wf]⟩

theorem wrYear (b : Byte) : Statement (.wrYear b) := by
  have h : decode (encode (.wrYear b)) = .wr b := decode_wr b
  exact ⟨Machine.decode_wf _, by rw [h]; simp [Instr.wf]⟩

theorem wrAlarm (b : Byte) : Statement (.wrAlarm b) := by
  have h : decode (encode (.wrAlarm b)) = .wr b := decode_wr b
  exact ⟨Machine.decode_wf _, by rw [h]; simp [Instr.wf]⟩

theorem wrTemp (b : Byte) : Statement (.wrTemp b) := by
  have h : decode (encode (.wrTemp b)) = .wr b := decode_wr b
  exact ⟨Machine.decode_wf _, by rw [h]; simp [Instr.wf]⟩

theorem wrCfg (b : Byte) : Statement (.wrCfg b) := by
  have h : decode (encode (.wrCfg b)) = .wr b := decode_wr b
  exact ⟨Machine.decode_wf _, by rw [h]; simp [Instr.wf]⟩

theorem wrAie (b : Byte) : Statement (.wrAie b) := by
  have h : decode (encode (.wrAie b)) = .wr b := decode_wr b
  exact ⟨Machine.decode_wf _, by rw [h]; simp [Instr.wf]⟩

theorem wrAif (b : Byte) : Statement (.wrAif b) := by
  have h : decode (encode (.wrAif b)) = .wr b := decode_wr b
  exact ⟨Machine.decode_wf _, by rw [h]; simp [Instr.wf]⟩

theorem wrOor (b : Byte) : Statement (.wrOor b) := by
  have h : decode (encode (.wrOor b)) = .wr b := decode_wr b
  exact ⟨Machine.decode_wf _, by rw [h]; simp [Instr.wf]⟩

theorem rdPlain : Statement .rdPlain := ⟨Machine.decode_wf _, by decide⟩

theorem rdTemph : Statement .rdTemph := ⟨Machine.decode_wf _, by decide⟩

theorem rdTempl : Statement .rdTempl := ⟨Machine.decode_wf _, by decide⟩

theorem rdOor : Statement .rdOor := ⟨Machine.decode_wf _, by decide⟩

end Sys2Proof.Laws.EncodeKind
end

