-- ==== Sys2Proof/Certificates/Slice0/Obligations.lean ====
section
/-! DEFINITION. The statements for the provers. A right side `{ s with … }` says by itself that every other element of the
state is unchanged; what happens to the register file is said through reads of one byte. Statements that rest on a choice of
the spec (a decision D<n> of 92_eei_decisions.md) or of the model (a log entry) say so. -/

open Sys2Proof Sys2Proof.Machine

/-! ### Reset -/

/-- R176, and the same of the state the model starts from. -/
def Obligations.ResetRegisterFile : Prop :=
  ∀ s : State, ∃ t, exec .reset s = .next t ∧ ∀ u ∈ [t, State.reset],
    u.reg 3 = 0x06 ∧ u.reg 4 = 0x01 ∧ u.reg 5 = 0x01 ∧ u.reg 7 = 0x20
    ∧ (∀ a ≤ 30, a ∉ [3, 4, 5, 7] → u.reg a = 0x00)
    ∧ (∀ n, 1 ≤ n → n ≤ 6 → (u.alarmHour n).getLsbD 7 = false)
    ∧ u.reg 29 &&& 0x3F = 0 ∧ u.reg 30 &&& 0x3F = 0
    ∧ u.conv = false ∧ u.rdy = false ∧ u.ded = false

/-- The values of R25 that are the spec's own choice (D20); what RESET leaves alone is the model's choice (log entries 1, 2). -/
def Obligations.ResetInstallsEveryElement : Prop :=
  ∀ s : State, exec .reset s = .next
    { mem := [], phase := 0, af := 0x00, leap := true, offset := 0x00, highRead := false, intU := false, intA1 := false,
      intA2 := false, intA3 := false, trdyOut := false, hzOut := false, adcRaw := s.adcRaw, dout := s.dout,
      status := s.status, adcStart := s.adcStart, diagReq := s.diagReq, conf := s.conf, inputs := s.inputs,
      freeCount := s.freeCount, marked := false }

/-! ### Scheduler -/

/-- Code 000, whatever `din` (decision D2). -/
def Obligations.NopChangesNothing : Prop :=
  ∀ (s : State) (din : Byte), decode (eventWord 0b000 din) = .nop ∧ exec .nop s = .next s

/-- TICK with the flag of each phase number written out (R65, decisions D5, D6, D7). -/
def Obligations.TickAdvancesAndRequests : Prop :=
  ∀ s : State,
    let p := s.phase + 1
    let k := p * (16 / s.conf.ticks)
    exec .tick s = .next { s with
      phase := if p = s.conf.ticks then 0 else p
      af := s.af ||| (if k = 2 then 0x01 else if k = 4 then (if s.conf.diagEn then 0x02 else 0x00) else if k = 6 then 0x04
        else if k = 8 then 0x08 else if k = 10 then 0x10 else if k = 12 then 0x20 else if k = 14 then 0x40
        else if k = 16 then 0x08 else 0x00) }

/-- The eight phase lines of R56, each in the states whose phase number it names. -/
def Obligations.PhaseLineResults : Prop :=
  ∀ s : State,
    let k := (s.phase + 1) * (16 / s.conf.ticks)
    let after := fun flag : Byte => { s with af := s.af ||| flag, phase := s.phase + 1 }
    (k = 2 → exec .phAlarmInt s = .next (after 0x01))
    ∧ (k = 4 → exec .phDiag s = .next (after (if s.conf.diagEn then 0x02 else 0x00)))
    ∧ (k = 6 → exec .phAlarmRst s = .next (after 0x04))
    ∧ (k = 8 → exec .phToggleMid s = .next (after 0x08))
    ∧ (k = 10 → exec .phTempAssert s = .next (after 0x10))
    ∧ (k = 12 → exec .phTimeInc s = .next (after 0x20))
    ∧ (k = 14 → exec .phTempDeassert s = .next (after 0x40))
    ∧ (k = 16 → exec .phToggleEnd s = .next { s with af := s.af ||| 0x08, phase := 0 })

/-- TICK takes the line that the table of R56 has for its phase number, and only advances `PHASE` where there is none. In
every other state a phase line is the tick of that state (the model's choice, log entry 8). -/
def Obligations.TickTakesItsPhaseLine : Prop :=
  (∀ (s : State) (k : BitVec 5), (s.phase + 1) * (16 / s.conf.ticks) = k.toNat →
    (∀ i, decodeRow (.ph16 k) = .ok i → exec .tick s = exec i s)
    ∧ (∀ e, decodeRow (.ph16 k) = .error e →
        exec .tick s = .next { s with phase := if s.phase + 1 = s.conf.ticks then 0 else s.phase + 1 }))
  ∧ ∀ (s : State) (i : Instr), i.isTick = true → exec i s = exec .tick s

/-- ADC_DONE (R68, decision D7 for the bit): a second one before the flag is consumed merges with the first. -/
def Obligations.AdcDoneRequestsTheCopy : Prop :=
  ∀ s : State, exec .adc s = .next { s with af := s.af ||| 0x80 } ∧ execAll [.adc, .adc] s = exec .adc s

/-- One cycle of ticks from phase 0 with no foreground step between (R67): `PHASE` is 0 again and every flag of the phase
table is requested, on any events that come after. -/
def Obligations.CycleOfTicksRequestsEveryPhaseFlag : Prop :=
  ∀ (s : State) (rest : List Input), s.phase = 0 → s.inputs = List.replicate s.conf.ticks (eventInput .tick) ++ rest →
    ∃ t, core.run s.conf.ticks s = .next t ∧ t.inputs = rest ∧ t.phase = 0
      ∧ t.af = s.af ||| (if s.conf.diagEn then 0x7F else 0x7D)
      ∧ t.block = { s with phase := 0, af := t.af }.block

/-! ### Foreground dispatcher -/

/-- R72: no flag set, no conversion requested. -/
def Obligations.ForegroundIdleChangesNothing : Prop :=
  ∀ s : State, s.af = 0 → s.conv = false → exec .fg s = .next s

/-- R70, R71 with `FG_ORDER = PRIORITY` (decision D8): the pending action of lowest index, its flag cleared, is performed.
CONV_START, index 8, has no flag. -/
def Obligations.ForegroundTakesLowestIndex : Prop :=
  ∀ (s : State) (a : Action), s.conf.fgOrder = .priority → s.isPending a = true →
    (∀ b, s.isPending b = true → a.index ≤ b.index) →
    ∃ t, exec .fg s = .next t ∧ exec a.instr { s with af := s.af &&& ~~~(1#8 <<< a.index) } = .next t

/-- R70, R71 with `FG_ORDER = ANY` (decision D8, U6): some pending action, by a free choice. -/
def Obligations.ForegroundAnyOrderTakesAPendingAction : Prop :=
  ∀ (s : State), s.conf.fgOrder = .any → (∃ a, s.isPending a = true) →
    ∃ a t, s.isPending a = true ∧ exec .fg s = .next t
      ∧ exec a.instr { s with af := s.af &&& ~~~(1#8 <<< a.index), freeCount := s.freeCount + 1 } = .next t

/-- The pseudo-operation SECOND of R63: from phase 0 with nothing pending, `N` pairs of TICK and FG perform each action of the
cycle once (ACT_TOGGLE twice) in the order of R56. -/
def Obligations.SecondRunsTheCycleInOrder : Prop :=
  ∀ (s : State) (rest : List Input), s.phase = 0 → s.af = 0 → s.conv = false → s.conf.fgOrder = .priority →
    s.inputs = (List.replicate s.conf.ticks [eventInput .tick, eventInput .fg]).flatten ++ rest →
    ∃ t u, core.run (2 * s.conf.ticks) s = .next t ∧ t.inputs = rest
      ∧ execAll ([.actAlarmInt] ++ (if s.conf.diagEn then [.actDiag] else [])
          ++ [.actAlarmRst, .actToggle, .actTempAssert, .actTimeInc, .actTempDeassert, .actToggle]) s = .next u
      ∧ t.block = u.block

/-! ### Alarm engine -/

/-- ACT_ALARM_INT (R111, R112): the unison output for any latched and enabled alarm, the dedicated outputs of alarms 1 to 3
through the gate; no latch is cleared. Which bit is which alarm's is decision D12. -/
def Obligations.AlarmRoutingAssertsOutputs : Prop :=
  ∀ s : State,
    let fired := fun n : Nat => (s.reg 30).getLsbD n && (s.reg 29).getLsbD n
    let ded := (s.reg 28).getLsbD s.conf.dedBit
    let mode := (s.reg 29).getLsbD s.conf.modeBit.index
    let gate := match s.conf.dedGate with
      | .cfg => ded
      | .aie => mode
      | .both => ded && mode
      | .either => ded || mode
    exec .actAlarmInt s = .next { s with
      intU := s.intU || fired 0 || fired 1 || fired 2 || fired 3 || fired 4 || fired 5
      intA1 := s.intA1 || (fired 0 && gate)
      intA2 := s.intA2 || (fired 1 && gate)
      intA3 := s.intA3 || (fired 2 && gate) }

/-- R113, whole: what ACT_ALARM_RST does, and that besides RESET nothing else clears one of the four latches; performed by
FG_STEP when flag 2 is consumed. -/
def Obligations.OnlyResetActionDeassertsAlarmOutputs : Prop :=
  (∀ s : State, exec .actAlarmRst s = .next { s with intU := false, intA1 := false, intA2 := false, intA3 := false })
  ∧ (∀ s : State, s.choose = some .alarmRst → ∃ t, exec .fg s = .next t
      ∧ t.af.getLsbD 2 = false ∧ t.intU = false ∧ t.intA1 = false ∧ t.intA2 = false ∧ t.intA3 = false ∧ t.mem = s.mem)
  ∧ ∀ (i : Instr) (s t : State), exec i s = .next t → s.performs i .alarmRst = false → i ≠ .reset →
      (s.intU = true → t.intU = true) ∧ (s.intA1 = true → t.intA1 = true) ∧ (s.intA2 = true → t.intA2 = true)
      ∧ (s.intA3 = true → t.intA3 = true)

/-- An alarm output is asserted only by ACT_ALARM_INT, and only for an alarm that is latched and enabled (R111, R115, R158). -/
def Obligations.AlarmOutputsNeedALatchedEnabledAlarm : Prop :=
  ∀ (i : Instr) (s t : State), exec i s = .next t →
    (s.intU = false → t.intU = true → s.performs i .alarmInt = true ∧ s.reg 30 &&& s.reg 29 &&& 0x3F ≠ 0)
    ∧ (s.intA1 = false → t.intA1 = true → s.performs i .alarmInt = true ∧ (s.reg 30 &&& s.reg 29).getLsbD 0 = true)
    ∧ (s.intA2 = false → t.intA2 = true → s.performs i .alarmInt = true ∧ (s.reg 30 &&& s.reg 29).getLsbD 1 = true)
    ∧ (s.intA3 = false → t.intA3 = true → s.performs i .alarmInt = true ∧ (s.reg 30 &&& s.reg 29).getLsbD 2 = true)

/-- The comparator at a minute boundary (R99, R106, R107, R108; decisions D12, D13, D17): on the time that the same operation
has produced, raw bytes compared. Every stage that the carry reaches finds its field in its domain, whatever the fields of the
stages that it does not reach hold (R98); that the comparator runs after a year rollover with such a century is DEDUCED (log
entry 10). -/
def Obligations.MinuteBoundaryLatchesMatchingAlarms : Prop :=
  ∀ s : State, s.reg 0 = 0x59 → s.reachedInDomain = true →
    ∃ t, exec .actTimeInc s = .next t ∧ t.reg 0 = 0x00 ∧ t.marked = s.marked
      ∧ (t.reg 30) &&& 0xC0 = (s.reg 30) &&& 0xC0
      ∧ ∀ n, 1 ≤ n → n ≤ 6 →
          let base := 8 + 3 * (n - 1)
          let dow := (t.reg 3).toNat
          let mask : Byte := if 1 ≤ dow ∧ dow ≤ 7 then 1#8 <<< (dow - 1) else s.conf.dowOorMask
          ((t.reg 30).getLsbD (n - 1) = true ↔
            (s.reg 30).getLsbD (n - 1) = true
            ∨ (t.reg 1 = s.reg base ∧ t.reg 2 ||| 0x80 = s.reg (base + 1)
                ∧ ((s.reg (base + 2)).getLsbD 7 = true ∨ s.reg (base + 2) &&& mask ≠ 0)))

/-- The latched flag as a state machine (the table of R110): one group of rows per line, every other operation unchanged. The
comparator is reached on a valid calendar (decisions D12, D13; R99, R109); TimeIncrementFrameInEveryState says what holds on
any other. A class of the bus port executed at an offset that its key excludes is a write or read at that offset: the model's
choice (log entry 8). -/
def Obligations.AlarmFlagStateMachine : Prop :=
  ∀ (i : Instr) (s t : State) (n : Nat), n < 6 → exec i s = .next t →
    (s.performs i .timeInc = true → s.calValid = true →
      (t.reg 30).getLsbD n = ((s.reg 30).getLsbD n || (decide (s.reg 0 = 0x59) && t.alarmMatch (n + 1))))
    ∧ (∀ b, i.isWrite b = true → s.offset = 30 → (t.reg 30).getLsbD n = ((s.reg 30).getLsbD n && b.getLsbD n))
    ∧ (s.performs i .timeInc = false → (∀ b, i.isWrite b = true → s.offset ≠ 30) → i ≠ .reset →
        (t.reg 30).getLsbD n = (s.reg 30).getLsbD n)

/-! ### Outputs and temperature -/

/-- ACT_TOGGLE and ACT_DIAG (R120, R121). R121 has ACT_DIAG run only with `DIAG_EN` 1, the scheduler making the test (R65,
decision D6); that the row pulses with `DIAG_EN` 0 too is the model's choice (log entry 8). -/
def Obligations.ToggleAndDiagResults : Prop :=
  ∀ s : State, exec .actToggle s = .next { s with hzOut := !s.hzOut } ∧ exec .actDiag s = .next { s with diagReq := true }

/-- ACT_TEMP_ASSERT and ACT_TEMP_DEASSERT (R124, R125), and that nothing else but RESET moves the output. -/
def Obligations.TemperatureReadyOutput : Prop :=
  (∀ s : State,
    exec .actTempAssert s = .next { s with trdyOut := s.trdyOut || (s.reg 28).getLsbD s.conf.rdyBit }
    ∧ exec .actTempDeassert s = .next { s with trdyOut := false })
  ∧ ∀ (i : Instr) (s t : State), exec i s = .next t → t.trdyOut ≠ s.trdyOut →
      s.performs i .tempAssert = true ∨ s.performs i .tempDeassert = true ∨ i = .reset

/-- CONV_START (R126): enabled when `CONV` is 1. That it changes nothing where it is not enabled is the model's choice (log
entry 8). -/
def Obligations.ConversionStartPulsesAndClearsRequest : Prop :=
  ∀ s : State,
    ((s.reg 28).getLsbD s.conf.convBit = true → ∃ m, exec .convStart s = .next { s with mem := m, adcStart := true }
      ∧ s.storedIn m 28 (s.reg 28 &&& ~~~(1#8 <<< s.conf.convBit.val)))
    ∧ ((s.reg 28).getLsbD s.conf.convBit = false → exec .convStart s = .next s)

/-- ACT_CONV_DONE (R127, decision D22): the 16 bits of the port into the two registers, `RDY` set. Where the environment does
not constrain the port the result is a free value (U11, log entry 3), for every value of the counter. -/
def Obligations.ConversionResultIsStored : Prop :=
  ∀ s : State, ∃ m,
    exec .actConvDone s = .next { s with
      mem := m, freeCount := if s.adcRaw = none then s.freeCount + 1 else s.freeCount }
    ∧ ∀ a, m.read a =
        if a = 26 then (s.adcRaw.getD (Config.freeRaw s.freeCount)).extractLsb' 8 8
        else if a = 27 then (s.adcRaw.getD (Config.freeRaw s.freeCount)).extractLsb' 0 8
        else if a = 28 then s.reg 28 ||| (1#8 <<< s.conf.rdyBit.val)
        else s.reg a

/-- The ready bit as a state machine (the table of R128): one group of rows per line, every other operation unchanged. A class
of the bus port executed at an offset that its key excludes (`wrTime` at 28, `rdPlain` at 27) is a write or read at that
offset: the model's choice (log entry 8). -/
def Obligations.ReadyBitStateMachine : Prop :=
  ∀ (i : Instr) (s t : State), s.conf.wf = true → exec i s = .next t →
    (s.performs i .convDone = true → t.rdy = true)
    ∧ (∀ b, i.isWrite b = true → s.offset = 28 → t.rdy = (s.rdy && b.getLsbD s.conf.rdyBit))
    ∧ (i.isRead = true → s.offset = 27 → t.rdy = (s.rdy && !s.highRead))
    ∧ (s.performs i .convDone = false → (∀ b, i.isWrite b = true → s.offset ≠ 28) → (i.isRead = true → s.offset ≠ 27) →
        i ≠ .reset → t.rdy = s.rdy)

/-- A complete read of a result (R129, R148, R149, R184): high then low releases it, and answers the two bytes; the high byte
alone does not release it. -/
def Obligations.HighThenLowReadReleasesTheResult : Prop :=
  ∀ s : State,
    (∃ t, execAll [.setoff 26, .rd] s = .next t ∧ t.dout = some (s.reg 26) ∧ t.rdy = s.rdy ∧ t.highRead = true
      ∧ t.offset = 27)
    ∧ (∃ t, execAll [.setoff 26, .rd, .rd] s = .next t ∧ t.dout = some (s.reg 27) ∧ t.rdy = false ∧ t.highRead = false
      ∧ t.offset = 28 ∧ ∀ a, a ≠ 28 → t.reg a = s.reg a)
    ∧ (s.highRead = false →
      ∃ t, execAll [.setoff 27, .rd] s = .next t ∧ t.dout = some (s.reg 27) ∧ t.rdy = s.rdy ∧ t.highRead = false)

/-! ### Bus port -/

/-- R135. -/
def Obligations.SetOffsetLoadsThePointer : Prop :=
  ∀ (s : State) (b : Byte), decode (BitVec.ofNat 11 (0x400 + b.toNat)) = .setoff b
    ∧ exec (.setoff b) s = .next { s with offset := b }

/-- WR.TIME, WR.ALARM and WR.AIE store the byte as sent (R137, R139, R142; decisions D19, D25, D30). -/
def Obligations.PlainWritesStoreTheByte : Prop :=
  ∀ (s : State) (b : Byte), ∃ m, s.storedIn m s.offset.toNat b ∧
    let t := { s with mem := m, offset := s.offset + 1, status := some true }
    (s.offset.toNat ≤ 5 → exec (.wr b) s = .next t ∧ exec (.wrTime b) s = .next t)
    ∧ (8 ≤ s.offset.toNat ∧ s.offset.toNat ≤ 25 → exec (.wr b) s = .next t ∧ exec (.wrAlarm b) s = .next t)
    ∧ (s.offset.toNat = 29 → exec (.wr b) s = .next t ∧ exec (.wrAie b) s = .next t)

/-- WR.YEAR (R138, R95; decisions D14, D15): the byte is stored and `LEAP` follows the Gregorian rule on the new year; where
the new year is not valid BCD `LEAP` is a free value (U3, log entry 3). -/
def Obligations.YearWriteRecomputesLeap : Prop :=
  ∀ (s : State) (b : Byte), (s.offset = 6 ∨ s.offset = 7) →
    let year := if s.offset = 6 then b else s.reg 6
    let cent := if s.offset = 7 then b else s.reg 7
    let valid := isBcd year && isBcd cent
    ∃ m, s.storedIn m s.offset.toNat b ∧
      let t := { s with
        mem := m, offset := s.offset + 1, status := some true
        leap := if valid then Civil.leapYear (100 * bcd2dec cent + bcd2dec year) else Config.freeBit s.freeCount
        freeCount := if valid then s.freeCount else s.freeCount + 1 }
      exec (.wr b) s = .next t ∧ exec (.wrYear b) s = .next t

/-- WR.TEMP (R140). -/
def Obligations.TemperatureRegistersIgnoreWrites : Prop :=
  ∀ (s : State) (b : Byte), (s.offset = 26 ∨ s.offset = 27) →
    exec (.wr b) s = .next { s with offset := s.offset + 1, status := some true }
    ∧ exec (.wrTemp b) s = .next { s with offset := s.offset + 1, status := some true }

/-- WR.CFG (R141): bit by bit, and what becomes of a conversion request. `OFFSET` advances and `status` is success, also where
the byte was corrected, and nothing else changes (R136, R145; decisions D19, D25, D30). -/
def Obligations.ConfigWriteCannotSetReady : Prop :=
  ∀ (s : State) (b : Byte), s.offset = 28 →
    ∃ m, exec (.wr b) s = .next { s with mem := m, offset := 29, status := some true }
      ∧ exec (.wrCfg b) s = .next { s with mem := m, offset := 29, status := some true }
      ∧ (∀ a, a ≠ 28 → m.read a = s.reg a)
      ∧ (∀ j < 8, (m.read 28).getLsbD j =
          if j = s.conf.rdyBit.val then (s.reg 28).getLsbD j && b.getLsbD j else b.getLsbD j)
      ∧ (s.conf.wf = true → { s with mem := m }.isPending .convStart = b.getLsbD s.conf.convBit)

/-- WR.AIF (R143, decision D24 for bits 7 and 6): a flag can only stay or clear. -/
def Obligations.FlagWriteOnlyClears : Prop :=
  ∀ (s : State) (b : Byte), s.offset = 30 →
    ∃ m, exec (.wr b) s = .next { s with mem := m, offset := 31, status := some true }
      ∧ exec (.wrAif b) s = .next { s with mem := m, offset := 31, status := some true }
      ∧ (∀ a, a ≠ 30 → m.read a = s.reg a)
      ∧ (∀ j < 8, (m.read 30).getLsbD j = if j < 6 then (s.reg 30).getLsbD j && b.getLsbD j else b.getLsbD j)

/-- WR.OOR and RD.OOR (R44, R144, R150; decision D18). -/
def Obligations.OffsetsWithoutRegister : Prop :=
  ∀ (s : State) (b : Byte), 31 ≤ s.offset.toNat →
    exec (.wr b) s = .next { s with offset := s.offset + 1, status := some true }
    ∧ exec (.wrOor b) s = .next { s with offset := s.offset + 1, status := some true }
    ∧ exec .rd s = .next { s with offset := s.offset + 1, dout := some 0x00 }
    ∧ exec .rdOor s = .next { s with offset := s.offset + 1, dout := some 0x00 }

/-- BUS_WRITE takes the class of R59 that its offset names. In every other state a class is the write of that state (the
model's choice, log entry 8). -/
def Obligations.WriteTakesItsClass : Prop :=
  (∀ (s : State) (b : Byte), exec (.wr b) s = exec (decodeBusWrite s.offset b) s)
  ∧ ∀ (s : State) (b : Byte) (i : Instr), i.isWrite b = true → exec i s = exec (.wr b) s

/-- RD.PLAIN (R147). -/
def Obligations.PlainReadsReturnTheRegister : Prop :=
  ∀ s : State, (s.offset.toNat ≤ 25 ∨ (28 ≤ s.offset.toNat ∧ s.offset.toNat ≤ 30)) →
    exec .rd s = .next { s with offset := s.offset + 1, dout := some (s.reg s.offset.toNat) }
    ∧ exec .rdPlain s = .next { s with offset := s.offset + 1, dout := some (s.reg s.offset.toNat) }

/-- RD.TEMPH (R148). -/
def Obligations.HighByteReadSetsTheRecord : Prop :=
  ∀ s : State, s.offset = 26 →
    exec .rd s = .next { s with highRead := true, offset := 27, dout := some (s.reg 26) }
    ∧ exec .rdTemph s = .next { s with highRead := true, offset := 27, dout := some (s.reg 26) }

/-- RD.TEMPL (R149, decision D26). -/
def Obligations.LowByteReadReleasesAfterHigh : Prop :=
  ∀ s : State, s.offset = 27 →
    (s.highRead = false →
      exec .rd s = .next { s with offset := 28, dout := some (s.reg 27) }
      ∧ exec .rdTempl s = .next { s with offset := 28, dout := some (s.reg 27) })
    ∧ (s.highRead = true → ∃ m, s.storedIn m 28 (s.reg 28 &&& ~~~(1#8 <<< s.conf.rdyBit.val)) ∧
        let t := { s with mem := m, highRead := false, offset := 28, dout := some (s.reg 27) }
        exec .rd s = .next t ∧ exec .rdTempl s = .next t)

/-- BUS_READ takes the class of R60 that its offset names. In every other state a class is the read of that state (the
model's choice, log entry 8). -/
def Obligations.ReadTakesItsClass : Prop :=
  (∀ s : State, exec .rd s = exec (decodeBusRead s.offset) s)
  ∧ ∀ (s : State) (i : Instr), i.isRead = true → exec i s = exec .rd s

/-- A burst of reads (R146, R151): the k-th byte is that of the k-th offset, counted on from `OFFSET` modulo 256; offset 28 is
left out, since a read of offset 27 may have cleared a bit of it. -/
def Obligations.BurstReadReturnsSuccessiveRegisters : Prop :=
  ∀ (k : Nat) (s : State) (rest : List Input), s.mem.wf = true →
    s.inputs = List.replicate (k + 1) (eventInput .rd) ++ rest →
    ∃ t, core.run (k + 1) s = .next t ∧ t.inputs = rest ∧ t.offset = s.offset + BitVec.ofNat 8 (k + 1)
      ∧ (∀ a, a ≠ 28 → t.reg a = s.reg a)
      ∧ (s.offset + BitVec.ofNat 8 k ≠ 28 →
          t.dout = some (s.reg (s.offset + BitVec.ofNat 8 k).toNat))

/-- The record of R22: set by a read of 26, cleared by a read of 27 and by RESET, changed by nothing else (decision D26).
A class of BUS_READ executed at an offset that its key excludes (`rdOor` at 26) is a read at that offset: the model's choice
(log entry 8). -/
def Obligations.HighReadRecordOwnership : Prop :=
  ∀ (i : Instr) (s t : State), exec i s = .next t →
    t.highRead =
      if i.isRead = true ∧ s.offset = 26 then true
      else if i.isRead = true ∧ s.offset = 27 then false
      else if i = .reset then false else s.highRead

/-- The pointer of R21: loaded by BUS_SET_OFFSET, advanced modulo 256 by every read and write, 0 after RESET, changed by
nothing else (decisions D20, D30). That a class of the bus port executed at an offset that its key excludes advances it too is
the model's choice (log entry 8). -/
def Obligations.PointerOwnership : Prop :=
  ∀ (i : Instr) (s t : State), exec i s = .next t →
    (∀ b, i = .setoff b → t.offset = b)
    ∧ ((∃ b, i.isWrite b = true) ∨ i.isRead = true → t.offset = s.offset + 1)
    ∧ (i = .reset → t.offset = 0)
    ∧ ((∀ b, i ≠ .setoff b) → (∀ b, i.isWrite b = false) → i.isRead = false → i ≠ .reset → t.offset = s.offset)

/-! ### Who may change what (R164) -/

/-- `PHASE` moves only by ticks and RESET; a bit of `AF` is set only by ticks (6 to 0) and ADC_DONE (7), and cleared only by
FG_STEP and RESET; no operation changes the configuration (R18, R19, R164). A phase line executed under a phase number that its
key excludes is the tick of that state: the model's choice (log entry 8). -/
def Obligations.SchedulerStateOwnership : Prop :=
  ∀ (i : Instr) (s t : State), exec i s = .next t →
    t.conf = s.conf
    ∧ (t.phase ≠ s.phase → i.isTick = true ∨ i = .reset)
    ∧ (∀ n < 8, s.af.getLsbD n = false → t.af.getLsbD n = true → (i.isTick = true ∧ n < 7) ∨ (i = .adc ∧ n = 7))
    ∧ (∀ n < 8, s.af.getLsbD n = true → t.af.getLsbD n = false → i = .fg ∨ i = .reset)

/-- Who writes which register (R15, R17, R31, R164), RESET aside. A time register changes only by ACT_TIME_INC and a bus write
to it; an alarm record and AIE only by a bus write to them; a temperature register only by ACT_CONV_DONE. Of CFG: DED and the
unnamed bits change only by a bus write at 28; CONV rises only by such a write and falls only by CONV_START or such a write;
RDY rises only by ACT_CONV_DONE and falls only by such a write or by a read of 27 with the record set. Of AIF: bits 7 and 6
change only by a bus write at 30; a flag rises only in ACT_TIME_INC and falls only by such a write. A class of the bus port
executed at an offset that its key excludes is an access at that offset (log entry 8), and an ACT_TIME_INC outside its domain
writes only what log entry 4 says: both are the model's choices. -/
def Obligations.RegisterWriters : Prop :=
  ∀ (i : Instr) (s t : State), exec i s = .next t → i ≠ .reset →
    let written := fun a : Nat => s.offset.toNat = a ∧ ∃ b, i.isWrite b = true
    (∀ a, t.reg a ≠ s.reg a →
      (a ≤ 7 → s.performs i .timeInc = true ∨ written a)
      ∧ (8 ≤ a ∧ a ≤ 25 ∨ a = 29 → written a)
      ∧ (a = 26 ∨ a = 27 → s.performs i .convDone = true)
      ∧ a ≤ 30)
    ∧ (∀ j < 8, j ≠ s.conf.convBit.val → j ≠ s.conf.rdyBit.val → (t.reg 28).getLsbD j ≠ (s.reg 28).getLsbD j → written 28)
    ∧ (s.conf.wf = true →
      (s.conv = false → t.conv = true → written 28)
      ∧ (s.conv = true → t.conv = false → s.performs i .convStart = true ∨ written 28)
      ∧ (s.rdy = false → t.rdy = true → s.performs i .convDone = true)
      ∧ (s.rdy = true → t.rdy = false → written 28 ∨ (i.isRead = true ∧ s.offset = 27 ∧ s.highRead = true)))
    ∧ (∀ j, 6 ≤ j → j < 8 → (t.reg 30).getLsbD j ≠ (s.reg 30).getLsbD j → written 30)
    ∧ (∀ j < 6,
      ((s.reg 30).getLsbD j = false → (t.reg 30).getLsbD j = true → s.performs i .timeInc = true)
      ∧ ((s.reg 30).getLsbD j = true → (t.reg 30).getLsbD j = false → written 30))

/-- `LEAP` is written only by ACT_TIME_INC, by a bus write to offset 6 or 7, and by RESET (R20). A class of BUS_WRITE executed at
an offset that its key excludes is a write at that offset: the model's choice (log entry 8). -/
def Obligations.LeapIndicatorWriters : Prop :=
  ∀ (i : Instr) (s t : State), exec i s = .next t → t.leap ≠ s.leap →
    s.performs i .timeInc = true ∨ ((s.offset = 6 ∨ s.offset = 7) ∧ ∃ b, i.isWrite b = true) ∨ i = .reset

/-! ### Calendar engine -/

/-- The first four stages and the date's (R83 to R86, R90), each in the states in which it runs and its own field is valid,
whatever the fields of later stages hold: the field's new value, and where it does not carry the later fields stay. The hour's
carry goes to the day of week and to the date, by 1 each; the date's step is that of R90 with the month lengths of R87, whose month numbers are
general knowledge (G2; log entry 13). That a stage's result stays where a later stage that is reached finds its field outside
its domain is the model's choice (R98, decision D16; log entry 4). -/
def Obligations.CarryChainFromSecondToDay : Prop :=
  ∀ s t : State, exec .actTimeInc s = .next t →
    let sec := bcd2dec (s.reg 0)
    let min := bcd2dec (s.reg 1)
    let hour := bcd2dec (s.reg 2)
    (bcdIn (s.reg 0) 0 60 = true →
      t.reg 0 = dec2bcd ((sec + 1) % 60) ∧ (sec < 59 → ∀ a, a ≠ 0 → t.reg a = s.reg a))
    ∧ (s.reg 0 = 0x59 → bcdIn (s.reg 1) 0 60 = true →
      t.reg 1 = dec2bcd ((min + 1) % 60) ∧ (min < 59 → ∀ a, 2 ≤ a → a ≤ 7 → t.reg a = s.reg a))
    ∧ (s.reg 0 = 0x59 → s.reg 1 = 0x59 → bcdIn (s.reg 2) 0 24 = true →
      t.reg 2 = dec2bcd ((hour + 1) % 24) ∧ (hour < 23 → ∀ a, 3 ≤ a → a ≤ 7 → t.reg a = s.reg a))
    ∧ (s.reg 0 = 0x59 → s.reg 1 = 0x59 → s.reg 2 = 0x23 → 1 ≤ (s.reg 3).toNat → (s.reg 3).toNat ≤ 7 →
      t.reg 3 = (if s.reg 3 = 7 then 1 else s.reg 3 + 1)
      ∧ (dateStepOk (s.reg 4) (s.reg 5) s.leap = true →
          t.reg 4 = (if bcd2dec (s.reg 4) = mlen (bcd2dec (s.reg 5)) s.leap then 0x01 else dec2bcd (bcd2dec (s.reg 4) + 1))
          ∧ (bcd2dec (s.reg 4) ≠ mlen (bcd2dec (s.reg 5)) s.leap → ∀ a, 5 ≤ a → a ≤ 7 → t.reg a = s.reg a)))

/-- The last three stages (R91 to R93) at a midnight that ends a month, each in the states in which it runs and its own field
is valid; nothing but registers and `LEAP` records the end of a century. The end of a month is that of R87 and R90, whose month
numbers are general knowledge (G2; log entry 13). That the month and the year keep their new values where a year or a century
that is reached is outside its domain is the model's choice (R98, decision D16; log entry 4). -/
def Obligations.CarryChainFromMonthToCentury : Prop :=
  ∀ s t : State, s.reg 0 = 0x59 → s.reg 1 = 0x59 → s.reg 2 = 0x23 → 1 ≤ (s.reg 3).toNat → (s.reg 3).toNat ≤ 7 →
    bcdIn (s.reg 5) 1 13 = true → isBcd (s.reg 4) = true → bcd2dec (s.reg 4) = mlen (bcd2dec (s.reg 5)) s.leap →
    exec .actTimeInc s = .next t →
      t.reg 5 = (if s.reg 5 = 0x12 then 0x01 else dec2bcd (bcd2dec (s.reg 5) + 1))
      ∧ (s.reg 5 ≠ 0x12 → t.reg 6 = s.reg 6 ∧ t.reg 7 = s.reg 7)
      ∧ (s.reg 5 = 0x12 → isBcd (s.reg 6) = true →
          t.reg 6 = dec2bcd ((bcd2dec (s.reg 6) + 1) % 100) ∧ (s.reg 6 ≠ 0x99 → t.reg 7 = s.reg 7))
      ∧ (s.reg 5 = 0x12 → s.reg 6 = 0x99 → isBcd (s.reg 7) = true →
          t.reg 7 = dec2bcd ((bcd2dec (s.reg 7) + 1) % 100) ∧ t = { s with mem := t.mem, leap := t.leap }
          ∧ ∀ a, 8 ≤ a → a ≠ 30 → t.reg a = s.reg a)

/-- ACT_TIME_INC on a valid calendar advances the civil time by exactly one second, keeps the calendar valid, and changes
nothing but the time registers, `LEAP` and, at a minute boundary, flags of AIF (R82 to R95, R97, R99, R100 law 6; decisions
D14, D15). The civil time is arithmetic on plain numbers that shares no definition with the engine but `bcd2dec`. -/
def Obligations.TimeIncrementIsCivilSuccessor : Prop :=
  ∀ s : State, s.calValid = true →
    ∃ t, exec .actTimeInc s = .next t ∧ t.calValid = true ∧ t.civil = s.civil.nextSecond
      ∧ t = { s with mem := t.mem, leap := t.leap }
      ∧ (∀ a, 8 ≤ a → a ≠ 30 → t.reg a = s.reg a)
      ∧ (s.reg 0 ≠ 0x59 → t.reg 30 = s.reg 30)

/-- Law 1 of R100: 86400 increments advance the date by exactly one day and leave the time of day. -/
def Obligations.SecondsOfADayAdvanceTheDateByOne : Prop :=
  ∀ s : State, s.calValid = true →
    ∃ t, execAll (List.replicate 86400 .actTimeInc) s = .next t ∧ t.calValid = true ∧ t.civil = s.civil.nextDay

/-- A stage that is not reached is not affected (R98): with a valid second below 59 the operation is defined whatever the
other fields hold. -/
def Obligations.UnreachedStagesAreNotAffected : Prop :=
  ∀ s : State, bcdIn (s.reg 0) 0 59 = true →
    ∃ m, exec .actTimeInc s = .next { s with mem := m } ∧ s.storedIn m 0 (dec2bcd (bcd2dec (s.reg 0) + 1))

/-- ACT_TIME_INC in every state, inside or outside its domain: it runs, changes at most the time registers, flags of AIF
(which it never clears), `LEAP` and the model's counter and mark. Its running outside the domain is the model's choice (log
entry 4): on a field outside its domain the run is marked, and what follows holds for every value of the free values. -/
def Obligations.TimeIncrementFrameInEveryState : Prop :=
  ∀ s : State, ∃ t, exec .actTimeInc s = .next t
    ∧ t = { s with mem := t.mem, leap := t.leap, freeCount := t.freeCount, marked := t.marked }
    ∧ (∀ a, 8 ≤ a → a ≠ 30 → t.reg a = s.reg a)
    ∧ (s.reg 30) &&& ~~~(t.reg 30) = 0 ∧ (t.reg 30) &&& 0xC0 = (s.reg 30) &&& 0xC0
    ∧ (s.marked = true → t.marked = true)
    ∧ (bcdIn (s.reg 0) 0 60 = false → t.marked = true)

/-- The bytewise form of R81 gives the same pair as `bcd_step` on every input of its domain, for the limit and first value of
each field: seconds and minutes, hours, months, years and centuries, and the four limits of the date (R80, R81, R90). -/
def Obligations.BytewiseStepAgrees : Prop :=
  ∀ (limit first : Nat), (limit, first) ∈ [(60, 0), (24, 0), (13, 1), (100, 0), (29, 1), (30, 1), (31, 1), (32, 1)] → ∀ b : Byte,
    isBcd b = true → bcd2dec b < limit → bcdStepBytewise b limit first = bcdStep b limit first

/-- `is_leap` without division (R96), and that it is the Gregorian rule (R95). -/
def Obligations.LeapRuleWithoutDivision : Prop :=
  ∀ cent year : Byte, isBcd cent = true → isBcd year = true →
    isLeap cent year = (if year = 0x00 then div4 cent else div4 year)
    ∧ isLeap cent year = Civil.leapYear (100 * bcd2dec cent + bcd2dec year)

/-! ### The whole machine -/

/-- Every operation completes, in every state; there is no fault to raise (R155 says so of the block). Two clauses are the
model's choices: that an ACT_TIME_INC outside its domain completes, where R98, D16 and U2 say that a model should refuse it
(log entry 4), and that a row of the tables inside the block completes in a state that its key excludes (log entry 8). -/
def Obligations.EveryOperationCompletes : Prop :=
  (∀ (i : Instr) (s : State), ∃ t, exec i s = .next t) ∧ (∀ s : State, ∃ t, step s = .next t) ∧ IsEmpty Fault

/-- A step is the operation that the event on the ports selects, executed in the state in which the inputs of that event
stand on the ports and the outputs of the operation before are over; with no event it is a NOP (R36, R45; log entry 2). -/
def Obligations.StepRunsTheDecodedEvent : Prop :=
  ∀ s : State,
    (∀ (e : Input) (rest : List Input), s.inputs = e :: rest →
      step s = exec (decode (eventWord e.ev e.din)) { s with
        inputs := rest, adcRaw := e.adcRaw, dout := none, status := none, adcStart := false, diagReq := false })
    ∧ (s.inputs = [] → step s = .next { s with
        adcRaw := none, dout := none, status := none, adcStart := false, diagReq := false })

/-- The invariant at reset. -/
def Obligations.InvariantAtReset : Prop := State.reset.inv = true ∧ State.reset.calValid = true

/-- Every step keeps the invariant, from every state that meets it: the register file canonical, `PHASE` below `N` (R18), the
configuration legal (R5), `LEAP` in agreement with a valid year (R20) unless the run is marked (R98), `AF.DIAG` clear without
the sink (R65). -/
def Obligations.EveryStepKeepsTheInvariant : Prop :=
  ∀ s t : State, s.inv = true → step s = .next t → t.inv = true

/-- The canonical form is one: register files that read alike at every offset are equal. -/
def Obligations.CanonicalRegisterFileIsUnique : Prop :=
  ∀ m m' : Memory, m.wf = true → m'.wf = true → (∀ a, m.read a = m'.read a) → m = m'

/-! ### Encodings -/

/-- Words written out from R47 and keys from R56 to R60 decode to what they stand for. -/
def Obligations.WrittenWordsDecode : Prop :=
  decode 0b000_00000000#11 = .nop ∧ decode 0b001_00000000#11 = .tick ∧ decode 0b010_00000000#11 = .adc
  ∧ decode 0b011_00000000#11 = .fg ∧ decode 0b100_00011010#11 = .setoff 0x1A ∧ decode 0b101_00110000#11 = .wr 0x30
  ∧ decode 0b110_11111111#11 = .rd ∧ decode 0b111_11111111#11 = .reset
  ∧ decodeRow (.ph16 0b01100) = .ok .phTimeInc ∧ decodeRow (.af 0b0101) = .ok .actTimeInc
  ∧ decodeRow (.busw 25 0x07) = .ok (.wrAlarm 0x07) ∧ decodeRow (.busr 26) = .ok .rdTemph

/-- Decode and encode of event words agree (R46, R47): every event survives with every operand; the word of a decoded event is
the word itself up to a `din` that is ignored; and two words are the same event exactly when they agree on `ev` and, for
SETOFF and WR, on `din`. -/
def Obligations.EventWordsRoundTrip : Prop :=
  (∀ i : Instr, i.wf = true → decode (encode i) = i)
  ∧ (∀ w : EventWord, (decode w).wf = true
      ∧ encode (decode w) = if w.extractLsb' 9 2 = 0b10#2 then w else w &&& 0x700#11)
  ∧ ∀ w w' : EventWord, decode w = decode w' ↔
      w.extractLsb' 8 3 = w'.extractLsb' 8 3 ∧ (w.extractLsb' 9 2 = 0b10#2 → w.extractLsb' 0 8 = w'.extractLsb' 0 8)

/-- The table's keys (R56, R58, R59, R60, R64): every row survives encoding and decoding, with every operand; each class of
the bus port is named by exactly the offsets of its range; odd phases and indices above 8 name nothing. -/
def Obligations.RowKeysRoundTrip : Prop :=
  (∀ i : Instr, decodeRow (encodeRow i) = .ok i)
  ∧ (∀ (a b c : Byte),
      (decodeRow (.busw a b) = .ok (.wrTime c) ↔ a.toNat ≤ 5 ∧ c = b)
      ∧ (decodeRow (.busw a b) = .ok (.wrYear c) ↔ (a = 6 ∨ a = 7) ∧ c = b)
      ∧ (decodeRow (.busw a b) = .ok (.wrAlarm c) ↔ (8 ≤ a.toNat ∧ a.toNat ≤ 25) ∧ c = b)
      ∧ (decodeRow (.busw a b) = .ok (.wrTemp c) ↔ (a = 26 ∨ a = 27) ∧ c = b)
      ∧ (decodeRow (.busw a b) = .ok (.wrCfg c) ↔ a = 28 ∧ c = b)
      ∧ (decodeRow (.busw a b) = .ok (.wrAie c) ↔ a = 29 ∧ c = b)
      ∧ (decodeRow (.busw a b) = .ok (.wrAif c) ↔ a = 30 ∧ c = b)
      ∧ (decodeRow (.busw a b) = .ok (.wrOor c) ↔ 31 ≤ a.toNat ∧ c = b))
  ∧ (∀ a : Byte,
      (decodeRow (.busr a) = .ok .rdPlain ↔ a.toNat ≤ 25 ∨ (28 ≤ a.toNat ∧ a.toNat ≤ 30))
      ∧ (decodeRow (.busr a) = .ok .rdTemph ↔ a = 26)
      ∧ (decodeRow (.busr a) = .ok .rdTempl ↔ a = 27)
      ∧ (decodeRow (.busr a) = .ok .rdOor ↔ 31 ≤ a.toNat))
  ∧ (∀ k : BitVec 5, k.getLsbD 0 = true → decodeRow (.ph16 k) = .error .noPhaseLine)
  ∧ (∀ i : BitVec 4, 8 < i.toNat → decodeRow (.af i) = .error .noAction)
end

