-- ==== Sys2Proof/Tests/Slice0.lean ====
section
/-! SUPPORT. Tests: the well-formedness smoke test, the decoding of words and keys written out from the spec, one-step tests on
vectors of 95_test_vectors.md (named in each docstring), and for every obligation with hypotheses a state that meets them. -/

namespace Sys2Proof.Tests

open Sys2Proof.Machine

/-! ### Helpers -/

/-- The state after one instruction, if it answers one. -/
def after (i : Instr) (s : State) : Option State :=
  match exec i s with
  | .next t => some t
  | .fault _ => none
  | .refused _ => none

/-- A property of the state after one instruction; false where there is none. -/
def holdsAfter (i : Instr) (s : State) (p : State → Bool) : Bool :=
  match after i s with
  | some t => p t
  | none => false

/-- The reset state with some registers set. -/
def withRegs (cells : List (Nat × Byte)) : State := cells.foldl (fun s c => s.setReg c.1 c.2) State.reset

/-- The reset state with the registers from offset `a` on set. -/
def burst (a : Nat) : List Byte → State → State
  | [], s => s
  | b :: rest, s => burst (a + 1) rest (s.setReg a b)

/-- The reset state with `R[0..7]` and `LEAP` set, as the vectors T write them. -/
def cal (regs : List Byte) (leap : Bool) : State := { burst 0 regs State.reset with leap := leap }

/-- `R[0..7]`. -/
def timeOf (s : State) : List Byte := (List.range 8).map s.reg

/-- The registers from an offset on. -/
def regsAt (s : State) (offsets : List Nat) : List Byte := offsets.map s.reg

/-- The reset state with `OFFSET` set. -/
def atOffset (a : Byte) : State := { State.reset with offset := a }

/-- The default parameters with `N = 8`. -/
def conf8 : Config := { Config.default with cycle := .eight }

/-- The default parameters with `FG_ORDER = ANY`. -/
def confAny : Config := { Config.default with fgOrder := .any }

/-! ### Well-formedness: the check refuses ill-formed terms -/

theorem test_wf_events : [Instr.nop, .tick, .adc, .fg, .setoff 0, .wr 0, .rd, .reset].all Instr.wf = true := by decide

/-- A line of a table inside the block is no request of the environment. -/
theorem test_wf_refuses_inner_rows : [Instr.phAlarmInt, .phToggleEnd, .actTimeInc, .convStart, .wrTime 0, .wrOor 0, .rdPlain,
    .rdOor].any Instr.wf = false := by decide

theorem test_config_wf_default : Config.default.wf = true := by decide

/-- Two of the three CFG bit indices equal: refused, for each pair (00_scope.md R5). -/
theorem test_config_wf_refuses_shared_bits :
    ({ Config.default with dedBit := 1 } : Config).wf = false ∧ ({ Config.default with rdyBit := 0 } : Config).wf = false
    ∧ ({ Config.default with convBit := 2 } : Config).wf = false := by decide

/-! ### Decoding of words and keys written out from R47 and R56 to R60 -/

theorem test_decode_events :
    decode 0b000_11111111#11 = .nop ∧ decode 0b001_00000000#11 = .tick ∧ decode 0b010_00000000#11 = .adc
    ∧ decode 0b011_00000000#11 = .fg ∧ decode 0b100_00011010#11 = .setoff 0x1A ∧ decode 0b101_10000001#11 = .wr 0x81
    ∧ decode 0b110_00000000#11 = .rd ∧ decode 0b111_00000000#11 = .reset := by decide

/-- The words of program P4 of 95_test_vectors.md. -/
theorem test_decode_words_of_p4 :
    [0x700#11, 0x41C#11, 0x506#11, 0x300#11, 0x200#11, 0x300#11].map decode
      = [.reset, .setoff 28, .wr 0x06, .fg, .adc, .fg] := by decide

theorem test_decode_phases :
    decodeRow (.ph16 0b00010) = .ok .phAlarmInt ∧ decodeRow (.ph16 0b00100) = .ok .phDiag
    ∧ decodeRow (.ph16 0b00110) = .ok .phAlarmRst ∧ decodeRow (.ph16 0b01000) = .ok .phToggleMid
    ∧ decodeRow (.ph16 0b01010) = .ok .phTempAssert ∧ decodeRow (.ph16 0b01100) = .ok .phTimeInc
    ∧ decodeRow (.ph16 0b01110) = .ok .phTempDeassert ∧ decodeRow (.ph16 0b10000) = .ok .phToggleEnd := ⟨rfl, rfl, rfl, rfl, rfl, rfl, rfl, rfl⟩

theorem test_decode_actions :
    decodeRow (.af 0b0000) = .ok .actAlarmInt ∧ decodeRow (.af 0b0001) = .ok .actDiag
    ∧ decodeRow (.af 0b0010) = .ok .actAlarmRst ∧ decodeRow (.af 0b0011) = .ok .actToggle
    ∧ decodeRow (.af 0b0100) = .ok .actTempAssert ∧ decodeRow (.af 0b0101) = .ok .actTimeInc
    ∧ decodeRow (.af 0b0110) = .ok .actTempDeassert ∧ decodeRow (.af 0b0111) = .ok .actConvDone
    ∧ decodeRow (.af 0b1000) = .ok .convStart := ⟨rfl, rfl, rfl, rfl, rfl, rfl, rfl, rfl, rfl⟩

/-- Each class of R59 at both ends of its range. -/
theorem test_decode_write_classes :
    [0, 5, 6, 7, 8, 25, 26, 27, 28, 29, 30, 31, 255].map (fun a => decodeBusWrite a 0x5A)
      = [.wrTime 0x5A, .wrTime 0x5A, .wrYear 0x5A, .wrYear 0x5A, .wrAlarm 0x5A, .wrAlarm 0x5A, .wrTemp 0x5A, .wrTemp 0x5A,
        .wrCfg 0x5A, .wrAie 0x5A, .wrAif 0x5A, .wrOor 0x5A, .wrOor 0x5A] := by decide

/-- Each class of R60 at both ends of its range. -/
theorem test_decode_read_classes :
    [0, 25, 26, 27, 28, 30, 31, 255].map decodeBusRead
      = [.rdPlain, .rdPlain, .rdTemph, .rdTempl, .rdPlain, .rdPlain, .rdOor, .rdOor] := by decide

/-- Keys and words that name nothing are rejected by name. -/
theorem test_decode_rejects :
    decodeRow (.ph16 3) = .error .noPhaseLine ∧ decodeRow (.ph16 0) = .error .noPhaseLine
    ∧ decodeRow (.ph16 31) = .error .noPhaseLine ∧ decodeRow (.af 9) = .error .noAction
    ∧ decodeWord 2048 = .error .notAnEventWord := ⟨rfl, rfl, rfl, rfl, rfl⟩

theorem test_table_words :
    decodeTableWord 16 0x55A = some (.wr 0x5A) ∧ decodeTableWord 16 0x800 = none ∧ decodeTableWord 8 0x05 = some .actTimeInc
    ∧ decodeTableWord 8 0x0C = some .phTimeInc ∧ decodeTableWord 8 0x10 = some .phToggleEnd ∧ decodeTableWord 8 0x0B = none := by decide

/-- The state after the step that follows `withFetchWord`, seen through a property. -/
def stepHolds (nbits w : Nat) (p : State → Bool) : Bool :=
  match step (State.reset.withFetchWord nbits w) with
  | .next t => p t
  | .fault _ => false
  | .refused _ => false

/-- A word placed where the step fetches is the one that the first step after reset runs. -/
theorem test_fetch :
    stepHolds 16 0x45A (fun t => t.offset = 0x5A) = true ∧ stepHolds 16 0x100 (fun t => t.phase = 1) = true
    ∧ stepHolds 8 5 (fun t => t.reg 0 = 0x01 && t.af = 0) = true ∧ stepHolds 8 8 (fun t => t.adcStart && !t.conv) = true
    ∧ stepHolds 8 12 (fun t => t.phase = 12 && t.af = 0x20) = true
    ∧ stepHolds 8 16 (fun t => t.phase = 0 && t.af = 0x08) = true := by decide

/-! ### One step, on vectors of 95_test_vectors.md -/

/-- V1, tick 12: `PHASE` 11 to 12, `AF.TIME_INC`. -/
theorem test_tick : holdsAfter .tick { State.reset with phase := 11 } (fun t => t.phase = 12 && t.af = 0x20) = true := by decide

/-- V3, tick 8 with `N = 8`. -/
theorem test_tick_n8 : holdsAfter .tick { State.reset with conf := conf8, phase := 7, af := 0x75 }
    (fun t => t.phase = 0 && t.af = 0x7D) = true := by decide

/-- V2, tick 4 with and without the sink. -/
theorem test_ph_diag :
    holdsAfter .phDiag { State.reset with phase := 3, conf := { Config.default with diagEn := true } } (fun t => t.af = 0x02) = true
    ∧ holdsAfter .phDiag { State.reset with phase := 3 } (fun t => t.af = 0x00 && t.phase = 4) = true := by decide

/-- V1, ticks 2, 6, 8, 10, 12, 14, 16, each from an empty `AF`. -/
theorem test_phase_lines :
    [(Instr.phAlarmInt, 1, 0x01), (.phAlarmRst, 5, 0x04), (.phToggleMid, 7, 0x08), (.phTempAssert, 9, 0x10),
      (.phTimeInc, 11, 0x20), (.phTempDeassert, 13, 0x40), (.phToggleEnd, 15, 0x08)].all
      (fun (x : Instr × Nat × Byte) => holdsAfter x.1 { State.reset with phase := x.2.1 }
        (fun t => t.af = x.2.2 && t.phase = (x.2.1 + 1) % 16)) = true := by decide

/-- V7. -/
theorem test_adc : holdsAfter .adc { State.reset with phase := 3 } (fun t => t.af = 0x80 && t.phase = 3) = true := by decide

/-- V6, first and eighth step of the drain: the flag of lowest index goes, and the last one. -/
theorem test_fg : holdsAfter .fg { State.reset with af := 0xFF } (fun t => t.af = 0xFE) = true
    ∧ holdsAfter .fg { State.reset with af := 0x80, adcRaw := some 0x1234 }
      (fun t => t.af = 0x00 && regsAt t [26, 27, 28] = [0x12, 0x34, 0x04]) = true := by decide

/-- T37: 1999-12-31 23:59:59 to 2000. -/
theorem test_time_inc_century : holdsAfter .actTimeInc (cal [0x59, 0x59, 0x23, 0x05, 0x31, 0x12, 0x99, 0x19] false)
    (fun t => timeOf t = [0x00, 0x00, 0x00, 0x06, 0x01, 0x01, 0x00, 0x20] && t.leap) = true := by decide

/-- T18: February 28 of a leap year. -/
theorem test_time_inc_leap_day : holdsAfter .actTimeInc (cal [0x59, 0x59, 0x23, 0x03, 0x28, 0x02, 0x24, 0x20] true)
    (fun t => timeOf t = [0x00, 0x00, 0x00, 0x04, 0x29, 0x02, 0x24, 0x20]) = true := by decide

/-- The example after A20: alarms 1, 2 and 6 match, bit 6 of `AIF` stays. -/
theorem test_check_alarms :
    (burst 8 [0x30, 0x87, 0x80, 0x30, 0x87, 0x04, 0x30, 0x87, 0x03, 0x30, 0x07, 0x80, 0x00, 0x00, 0x00, 0x30, 0x87, 0x80]
      (withRegs [(1, 0x30), (2, 0x07), (3, 0x03), (30, 0x40)])).checkAlarms.reg 30 = 0x63 := by decide

/-- A03, A05, A16, A19. -/
theorem test_match :
    (withRegs [(1, 0x30), (2, 0x07), (3, 0x03), (8, 0x30), (9, 0x87), (10, 0x7B)]).alarmMatch 1 = false
    ∧ (withRegs [(1, 0x30), (2, 0x07), (3, 0x03), (8, 0x30), (9, 0x07), (10, 0x80)]).alarmMatch 1 = false
    ∧ (withRegs [(1, 0x30), (2, 0x07), (3, 0x00), (8, 0x30), (9, 0x87), (10, 0x7F)]).alarmMatch 1 = false
    ∧ (withRegs [(1, 0x30), (2, 0x87), (3, 0x03), (8, 0x30), (9, 0x87), (10, 0x80)]).alarmMatch 1 = true := by decide

/-- I07 and I03. -/
theorem test_alarm_int : holdsAfter .actAlarmInt (withRegs [(30, 0x07), (29, 0x05), (28, 0x01)])
      (fun t => t.intU && t.intA1 && !t.intA2 && t.intA3) = true
    ∧ holdsAfter .actAlarmInt { withRegs [(30, 0x09), (29, 0x8B)] with conf := { Config.default with dedGate := .aie } }
      (fun t => t.intU && t.intA1 && !t.intA2 && !t.intA3) = true := by decide

/-- After I10: all four latches go, the registers stay. -/
theorem test_alarm_rst : holdsAfter .actAlarmRst
    { withRegs [(30, 0x3F), (29, 0x3F)] with intU := true, intA1 := true, intA2 := true, intA3 := true }
    (fun t => !t.intU && !t.intA1 && !t.intA2 && !t.intA3 && t.reg 30 = 0x3F && t.reg 29 = 0x3F) = true := by decide

/-- O01, O02. -/
theorem test_toggle : holdsAfter .actToggle State.reset (fun t => t.hzOut) = true
    ∧ holdsAfter .actToggle { State.reset with hzOut := true } (fun t => !t.hzOut) = true := by decide

/-- V6, second step. -/
theorem test_diag : holdsAfter .actDiag State.reset (fun t => t.diagReq) = true := by decide

/-- O03, O05. -/
theorem test_temp_assert : holdsAfter .actTempAssert (withRegs [(28, 0x04)]) (fun t => t.trdyOut) = true
    ∧ holdsAfter .actTempAssert { State.reset with trdyOut := true } (fun t => t.trdyOut) = true := by decide

/-- O07. -/
theorem test_temp_deassert : holdsAfter .actTempDeassert { State.reset with trdyOut := true } (fun t => !t.trdyOut) = true := by decide

/-- The examples of R127 and of R126. -/
theorem test_conversion : holdsAfter .actConvDone { State.reset with adcRaw := some 0x01A7 }
      (fun t => regsAt t [26, 27, 28] = [0x01, 0xA7, 0x04]) = true
    ∧ holdsAfter .convStart (withRegs [(28, 0x02)]) (fun t => t.adcStart && t.reg 28 = 0x00) = true := by decide

/-- R135. -/
theorem test_setoff : holdsAfter (.setoff 0x1A) State.reset (fun t => t.offset = 26) = true := by decide

/-- The examples of R136 and R137. -/
theorem test_wr_time : holdsAfter (.wr 0x30) State.reset (fun t => t.reg 0 = 0x30 && t.offset = 1 && t.status = some true) = true
    ∧ holdsAfter (.wrTime 0x07) (atOffset 3) (fun t => t.reg 3 = 0x07) = true := by decide

/-- The example of R138. -/
theorem test_wr_year : holdsAfter (.wrYear 0x23) (atOffset 6) (fun t => t.reg 6 = 0x23 && !t.leap) = true := by decide

/-- The last byte of R139's example. -/
theorem test_wr_alarm : holdsAfter (.wrAlarm 0x80) (atOffset 10) (fun t => t.reg 10 = 0x80 && t.offset = 11) = true := by decide

/-- The example of R140. -/
theorem test_wr_temp : holdsAfter (.wrTemp 0xFF) { withRegs [(26, 0x01)] with offset := 26 }
    (fun t => t.reg 26 = 0x01 && t.offset = 27) = true := by decide

/-- The examples of R141. -/
theorem test_wr_cfg : holdsAfter (.wrCfg 0x07) (atOffset 28) (fun t => t.reg 28 = 0x03) = true
    ∧ holdsAfter (.wrCfg 0x07) { withRegs [(28, 0x04)] with offset := 28 } (fun t => t.reg 28 = 0x07) = true := by decide

/-- The example of R142. -/
theorem test_wr_aie : holdsAfter (.wrAie 0x3F) (atOffset 29) (fun t => t.reg 29 = 0x3F) = true := by decide

/-- The examples of R143. -/
theorem test_wr_aif : holdsAfter (.wrAif 0x3E) { withRegs [(30, 0x05)] with offset := 30 } (fun t => t.reg 30 = 0x04) = true
    ∧ holdsAfter (.wrAif 0xFF) { withRegs [(30, 0x05)] with offset := 30 } (fun t => t.reg 30 = 0xC5) = true := by decide

/-- The example of R144, and the wrap of R151. -/
theorem test_wr_oor : holdsAfter (.wrOor 0x55) (atOffset 31) (fun t => t.mem = [] && t.offset = 32) = true
    ∧ holdsAfter (.wr 0x55) (atOffset 255) (fun t => t.mem = [] && t.offset = 0) = true := by decide

/-- The example of R146. -/
theorem test_rd_plain : holdsAfter .rd (atOffset 4) (fun t => t.dout = some 0x01 && t.offset = 5) = true
    ∧ holdsAfter .rdPlain { withRegs [(30, 0x2A)] with offset := 30 } (fun t => t.dout = some 0x2A) = true := by decide

/-- Program P4, the reads of 26 and 27 after the conversion. -/
theorem test_rd_temp : holdsAfter .rdTemph { withRegs [(26, 0x01), (27, 0xA7), (28, 0x04)] with offset := 26 }
      (fun t => t.dout = some 0x01 && t.highRead && t.reg 28 = 0x04) = true
    ∧ holdsAfter .rdTempl { withRegs [(26, 0x01), (27, 0xA7), (28, 0x04)] with offset := 27, highRead := true }
      (fun t => t.dout = some 0xA7 && !t.highRead && t.reg 28 = 0x00 && t.offset = 28) = true := by decide

/-- The example of R150. -/
theorem test_rd_oor : holdsAfter .rdOor (atOffset 31) (fun t => t.dout = some 0x00 && t.offset = 32) = true := by decide

/-- The example of R175, from a state in which everything is set. -/
theorem test_reset : holdsAfter .reset
    { withRegs [(0, 0x12), (30, 0x3F)] with phase := 9, af := 0xFF, leap := false, offset := 9, intU := true, hzOut := true }
    (fun t => t = State.reset) = true := by decide

/-! ### Witnesses: for each obligation with hypotheses, states and operands that meet them, clause by clause -/

/-- A small state with `PHASE` and the cycle length set. -/
def atPhase (c : CycleLength) (p : Nat) : State := { State.reset with phase := p, conf := { Config.default with cycle := c } }

/-- Obligations.PhaseLineResults: every key, in both cycle lengths. -/
theorem witness_phase_line_results :
    [1, 3, 5, 7, 9, 11, 13, 15].map (fun p => ((atPhase .sixteen p).phase + 1) * (16 / (atPhase .sixteen p).conf.ticks))
      = [2, 4, 6, 8, 10, 12, 14, 16]
    ∧ [0, 1, 2, 3, 4, 5, 6, 7].map (fun p => ((atPhase .eight p).phase + 1) * (16 / (atPhase .eight p).conf.ticks))
      = [2, 4, 6, 8, 10, 12, 14, 16] := by decide

/-- Obligations.TickTakesItsPhaseLine: a key with a line, the last key, a key without one, and a line as a tick. -/
theorem witness_tick_takes_its_phase_line :
    ((atPhase .sixteen 11).phase + 1) * (16 / (atPhase .sixteen 11).conf.ticks) = (12#5).toNat
    ∧ decodeRow (.ph16 12) = .ok .phTimeInc
    ∧ ((atPhase .eight 7).phase + 1) * (16 / (atPhase .eight 7).conf.ticks) = (16#5).toNat
    ∧ decodeRow (.ph16 16) = .ok .phToggleEnd
    ∧ ((atPhase .sixteen 2).phase + 1) * (16 / (atPhase .sixteen 2).conf.ticks) = (3#5).toNat
    ∧ decodeRow (.ph16 3) = .error .noPhaseLine
    ∧ Instr.phToggleEnd.isTick = true := ⟨rfl, rfl, rfl, rfl, rfl, rfl, by decide⟩

/-- Obligations.CycleOfTicksRequestsEveryPhaseFlag, in both cycle lengths, with an event left over. -/
theorem witness_cycle_of_ticks :
    ∀ c ∈ [CycleLength.eight, .sixteen],
      let s := { atPhase c 0 with inputs := List.replicate c.ticks (eventInput .tick) ++ [eventInput .rd] }
      s.phase = 0 ∧ s.inputs = List.replicate s.conf.ticks (eventInput .tick) ++ [eventInput .rd] := by
  intro c _
  exact ⟨rfl, rfl⟩

/-- Obligations.ForegroundIdleChangesNothing. -/
theorem witness_foreground_idle : State.reset.af = 0 ∧ State.reset.conv = false := by decide

/-- Obligations.ForegroundTakesLowestIndex: the first action with everything pending, the last alone. -/
theorem witness_foreground_lowest :
    let s := { withRegs [(28, 0x02)] with af := 0xFF }
    let u := withRegs [(28, 0x02)]
    s.conf.fgOrder = .priority ∧ s.isPending .alarmInt = true
    ∧ (Action.all.all fun b => !s.isPending b || decide (Action.alarmInt.index ≤ b.index)) = true
    ∧ u.isPending .convStart = true
    ∧ (Action.all.all fun b => !u.isPending b || decide (Action.convStart.index ≤ b.index)) = true := by decide

/-- Obligations.ForegroundAnyOrderTakesAPendingAction. -/
theorem witness_foreground_any :
    let s := { State.reset with conf := confAny, af := 0x81 }
    s.conf.fgOrder = .any ∧ ∃ a, s.isPending a = true := ⟨rfl, .convDone, by decide⟩

/-- Obligations.SecondRunsTheCycleInOrder, in both cycle lengths. -/
theorem witness_second :
    ∀ c ∈ [CycleLength.eight, .sixteen],
      let s := { atPhase c 0 with inputs := (List.replicate c.ticks [eventInput .tick, eventInput .fg]).flatten ++ [] }
      s.phase = 0 ∧ s.af = 0 ∧ s.conv = false ∧ s.conf.fgOrder = .priority
      ∧ s.inputs = (List.replicate s.conf.ticks [eventInput .tick, eventInput .fg]).flatten ++ [] := by
  intro c _
  exact ⟨rfl, rfl, by simp [State.conv, State.reg, atPhase, State.reset, Memory.unlisted], rfl, rfl⟩

/-- Obligations.OnlyResetActionDeassertsAlarmOutputs: FG_STEP chooses ACT_ALARM_RST; another operation keeps a latch. -/
theorem witness_alarm_reset_action :
    { State.reset with af := 0x84 }.choose = some .alarmRst
    ∧ ∃ t, exec .nop { State.reset with intU := true } = .next t
      ∧ { State.reset with intU := true }.performs .nop .alarmRst = false ∧ Instr.nop ≠ .reset ∧ t.intU = true :=
  ⟨by decide, _, rfl, by decide, by decide, rfl⟩

/-- Obligations.AlarmOutputsNeedALatchedEnabledAlarm: all four outputs rise at once. -/
theorem witness_alarm_outputs :
    ∃ t, exec .actAlarmInt (withRegs [(30, 0x07), (29, 0x07), (28, 0x01)]) = .next t
      ∧ State.reset.intU = false ∧ t.intU = true ∧ t.intA1 = true ∧ t.intA2 = true ∧ t.intA3 = true :=
  ⟨_, rfl, by decide⟩

/-- Obligations.MinuteBoundaryLatchesMatchingAlarms: a full carry chain from a valid calendar (T39), and the carry stopping at
each earlier stage with the fields of all later stages outside their domains. -/
theorem witness_minute_boundary :
    [cal [0x59, 0x59, 0x23, 0x05, 0x31, 0x12, 0x99, 0x99] false, cal [0x59, 0x58, 0x24, 0x00, 0x00, 0x00, 0xAA, 0xAA] true,
      cal [0x59, 0x00, 0x24, 0x08, 0x00, 0x13, 0xAA, 0xAA] true, cal [0x59, 0x59, 0x22, 0x00, 0x00, 0x00, 0xAA, 0xAA] true,
      cal [0x59, 0x59, 0x23, 0x07, 0x30, 0x12, 0xAA, 0xAA] true, cal [0x59, 0x59, 0x23, 0x07, 0x30, 0x11, 0xAA, 0xAA] true,
      cal [0x59, 0x59, 0x23, 0x07, 0x31, 0x12, 0x98, 0xAA] true].all
      (fun s => decide (s.reg 0 = 0x59) && s.reachedInDomain) = true := by decide

/-- A field outside its domain is noticed at the stage that reaches it, and only there. -/
theorem test_reached_in_domain :
    (cal [0x58, 0x5A] true).reachedInDomain = true ∧ (cal [0x59, 0x5A] true).reachedInDomain = false
    ∧ (cal [0x59, 0x59, 0x24] true).reachedInDomain = false ∧ (cal [0x59, 0x59, 0x23, 0x00] true).reachedInDomain = false
    ∧ (cal [0x59, 0x59, 0x23, 0x01, 0x30, 0x02] true).reachedInDomain = false
    ∧ (cal [0x59, 0x59, 0x23, 0x01, 0x31, 0x12, 0x9A] true).reachedInDomain = false
    ∧ (cal [0x59, 0x59, 0x23, 0x01, 0x31, 0x12, 0x99, 0x9A] true).reachedInDomain = false := by decide

/-- Obligations.AlarmFlagStateMachine: the flag of alarm 6 rises on a valid calendar, is cleared by a write of 0, and is left
alone by an operation that is neither. -/
theorem witness_alarm_flag :
    (let s := (cal [0x59, 0x29, 0x07, 0x03, 0x01, 0x01, 0x00, 0x20] true |> burst 23 [0x30, 0x87, 0x80])
     ∃ t, exec .actTimeInc s = .next t ∧ s.calValid = true ∧ s.performs .actTimeInc .timeInc = true
       ∧ (s.reg 30).getLsbD 5 = false ∧ (t.reg 30).getLsbD 5 = true)
    ∧ (let s := { withRegs [(30, 0x3F)] with offset := 30 }
       ∃ t, exec (.wr 0x1F) s = .next t ∧ (Instr.wr 0x1F).isWrite 0x1F = true ∧ (s.reg 30).getLsbD 5 = true
         ∧ (t.reg 30).getLsbD 5 = false)
    ∧ (∃ t, exec .actAlarmInt State.reset = .next t ∧ State.reset.performs .actAlarmInt .timeInc = false
        ∧ Instr.actAlarmInt.isWrite 0x00 = false) :=
  ⟨⟨_, rfl, by decide⟩, ⟨_, rfl, by decide⟩, ⟨_, rfl, by decide⟩⟩

/-- Obligations.TemperatureReadyOutput: the output rises, and falls. -/
theorem witness_temperature_output :
    (∃ t, exec .actTempAssert (withRegs [(28, 0x04)]) = .next t ∧ t.trdyOut ≠ (withRegs [(28, 0x04)]).trdyOut)
    ∧ ∃ t, exec .actTempDeassert { State.reset with trdyOut := true } = .next t ∧ t.trdyOut ≠ true :=
  ⟨⟨_, rfl, by decide⟩, ⟨_, rfl, by decide⟩⟩

/-- Obligations.ConversionStartPulsesAndClearsRequest: both clauses. -/
theorem witness_conversion_start :
    ((withRegs [(28, 0x02)]).reg 28).getLsbD (withRegs [(28, 0x02)]).conf.convBit = true
    ∧ (State.reset.reg 28).getLsbD State.reset.conf.convBit = false := by decide

/-- Obligations.ReadyBitStateMachine: a conversion done, a write at 28, a read at 27, and an operation that does none. -/
theorem witness_ready_bit :
    State.reset.conf.wf = true ∧ State.reset.performs .actConvDone .convDone = true
    ∧ { State.reset with af := 0x80 }.performs .fg .convDone = true
    ∧ (Instr.wrCfg 0x07).isWrite 0x07 = true ∧ (atOffset 28).offset = 28
    ∧ Instr.rdTempl.isRead = true ∧ (atOffset 27).offset = 27
    ∧ State.reset.performs .tick .convDone = false ∧ Instr.tick.isRead = false ∧ Instr.tick ≠ .reset
    ∧ Instr.tick.isWrite 0x00 = false := by decide

/-- Obligations.HighThenLowReadReleasesTheResult and LowByteReadReleasesAfterHigh: both values of the record. -/
theorem witness_high_read :
    State.reset.highRead = false ∧ (atOffset 27).offset = 27 ∧ (atOffset 27).highRead = false
    ∧ { atOffset 27 with highRead := true }.offset = 27 ∧ { atOffset 27 with highRead := true }.highRead = true := by decide

/-- Obligations.PlainWritesStoreTheByte: the ends of each range. -/
theorem witness_plain_writes :
    (atOffset 0).offset.toNat ≤ 5 ∧ (atOffset 5).offset.toNat ≤ 5 ∧ 8 ≤ (atOffset 8).offset.toNat
    ∧ (atOffset 25).offset.toNat ≤ 25 ∧ (atOffset 29).offset.toNat = 29 := by decide

/-- Obligations.YearWriteRecomputesLeap: both offsets, with a new year that is valid BCD and one that is not. -/
theorem witness_year_write :
    (atOffset 6).offset = 6 ∧ (atOffset 7).offset = 7
    ∧ (isBcd 0x23 && isBcd ((atOffset 6).reg 7)) = true ∧ (isBcd 0x2A && isBcd ((atOffset 6).reg 7)) = false := by decide

/-- Obligations.TemperatureRegistersIgnoreWrites, ConfigWriteCannotSetReady, FlagWriteOnlyClears, HighByteReadSetsTheRecord. -/
theorem witness_write_offsets :
    (atOffset 26).offset = 26 ∧ (atOffset 27).offset = 27 ∧ (atOffset 28).offset = 28 ∧ (atOffset 28).conf.wf = true
    ∧ (atOffset 30).offset = 30 := by decide

/-- Obligations.OffsetsWithoutRegister: both ends. -/
theorem witness_no_register : 31 ≤ (atOffset 31).offset.toNat ∧ 31 ≤ (atOffset 255).offset.toNat := by decide

/-- Obligations.WriteTakesItsClass and ReadTakesItsClass: a class executed under an `OFFSET` of another. -/
theorem witness_classes : (Instr.wrOor 0x55).isWrite 0x55 = true ∧ Instr.rdOor.isRead = true := by decide

/-- Obligations.PlainReadsReturnTheRegister: the ends of both ranges. -/
theorem witness_plain_reads :
    (atOffset 0).offset.toNat ≤ 25 ∧ (atOffset 25).offset.toNat ≤ 25 ∧ 28 ≤ (atOffset 28).offset.toNat
    ∧ (atOffset 30).offset.toNat ≤ 30 := by decide

/-- Obligations.BurstReadReturnsSuccessiveRegisters: one read, and the last byte of a burst that wraps. -/
theorem witness_burst :
    (let s := { State.reset with inputs := List.replicate (0 + 1) (eventInput .rd) ++ [] }
     s.mem.wf = true ∧ s.inputs = List.replicate (0 + 1) (eventInput .rd) ++ [] ∧ s.offset + BitVec.ofNat 8 0 ≠ 28)
    ∧ (let s := { atOffset 250 with inputs := List.replicate (9 + 1) (eventInput .rd) ++ [eventInput .tick] }
       s.mem.wf = true ∧ s.inputs = List.replicate (9 + 1) (eventInput .rd) ++ [eventInput .tick]
       ∧ s.offset + BitVec.ofNat 8 9 ≠ 28) := by decide

/-- Obligations.HighReadRecordOwnership and PointerOwnership: an operation of each kind that they name answers a next state. -/
theorem witness_ownership_of_pointer :
    (∃ t, exec .rd (atOffset 26) = .next t ∧ t.highRead = true ∧ Instr.rd.isRead = true)
    ∧ (∃ t, exec .rd { atOffset 27 with highRead := true } = .next t ∧ t.highRead = false)
    ∧ (∃ t, exec (.setoff 9) State.reset = .next t ∧ t.offset = 9)
    ∧ (∃ t, exec .reset (atOffset 9) = .next t ∧ t.offset = 0)
    ∧ ∃ t, exec .tick (atOffset 9) = .next t ∧ t.offset = 9 ∧ Instr.tick.isRead = false ∧ Instr.tick ≠ .reset :=
  ⟨⟨_, rfl, by decide⟩, ⟨_, rfl, by decide⟩, ⟨_, rfl, by decide⟩, ⟨_, rfl, by decide⟩, ⟨_, rfl, by decide⟩⟩

/-- Obligations.SchedulerStateOwnership: the phase moves, a flag is set by a tick and by ADC_DONE, a flag is cleared. -/
theorem witness_scheduler_ownership :
    (∃ t, exec .tick { State.reset with phase := 11 } = .next t ∧ t.phase ≠ 11 ∧ t.af.getLsbD 5 = true)
    ∧ (∃ t, exec .adc State.reset = .next t ∧ State.reset.af.getLsbD 7 = false ∧ t.af.getLsbD 7 = true)
    ∧ ∃ t, exec .fg { State.reset with af := 0x40 } = .next t ∧ t.af.getLsbD 6 = false :=
  ⟨⟨_, rfl, by decide⟩, ⟨_, rfl, by decide⟩, ⟨_, rfl, by decide⟩⟩

/-- Obligations.RegisterWriters and LeapIndicatorWriters: a register of each group changes, and `LEAP` changes. -/
theorem witness_register_writers :
    (∃ t, exec .actTimeInc State.reset = .next t ∧ t.reg 0 ≠ State.reset.reg 0)
    ∧ (∃ t, exec (.wr 0x30) (atOffset 25) = .next t ∧ t.reg 25 ≠ (atOffset 25).reg 25)
    ∧ (∃ t, exec .actConvDone { State.reset with adcRaw := some 0x0101 } = .next t ∧ t.reg 27 ≠ State.reset.reg 27)
    ∧ ∃ t, exec (.wr 0x23) (atOffset 6) = .next t ∧ t.leap ≠ State.reset.leap ∧ t.reg 6 ≠ State.reset.reg 6 :=
  ⟨⟨_, rfl, by decide⟩, ⟨_, rfl, by decide⟩, ⟨_, rfl, by decide⟩, ⟨_, rfl, by decide⟩⟩

/-- Obligations.RegisterWriters, the clauses on CFG: an unnamed bit and DED change, CONV rises and falls, RDY rises and falls. -/
theorem witness_config_writers :
    State.reset.conf.wf = true
    ∧ (∃ t, exec (.wr 0x83) (atOffset 28) = .next t ∧ (t.reg 28).getLsbD 7 ≠ ((atOffset 28).reg 28).getLsbD 7
        ∧ (t.reg 28).getLsbD 0 ≠ ((atOffset 28).reg 28).getLsbD 0 ∧ (atOffset 28).conv = false ∧ t.conv = true)
    ∧ (∃ t, exec .convStart (withRegs [(28, 0x02)]) = .next t ∧ (withRegs [(28, 0x02)]).conv = true ∧ t.conv = false)
    ∧ (let s := { State.reset with adcRaw := some 0x01A7 }
       ∃ t, exec .actConvDone s = .next t ∧ s.rdy = false ∧ t.rdy = true)
    ∧ (let s := { withRegs [(28, 0x04)] with offset := 27, highRead := true }
       ∃ t, exec .rd s = .next t ∧ s.rdy = true ∧ t.rdy = false) :=
  ⟨by decide, ⟨_, rfl, by decide⟩, ⟨_, rfl, by decide⟩, ⟨_, rfl, by decide⟩, ⟨_, rfl, by decide⟩⟩

/-- Obligations.RegisterWriters, the clauses on AIF: both storage bits change by a write, a flag falls by it, a flag rises. -/
theorem witness_flag_writers :
    (let s := { withRegs [(30, 0x21)] with offset := 30 }
     ∃ t, exec (.wr 0xC1) s = .next t ∧ (t.reg 30).getLsbD 7 ≠ (s.reg 30).getLsbD 7
       ∧ (t.reg 30).getLsbD 6 ≠ (s.reg 30).getLsbD 6 ∧ (s.reg 30).getLsbD 5 = true ∧ (t.reg 30).getLsbD 5 = false)
    ∧ (let s := (cal [0x59, 0x29, 0x07, 0x03, 0x01, 0x01, 0x00, 0x20] true |> burst 8 [0x30, 0x87, 0x80])
       ∃ t, exec .actTimeInc s = .next t ∧ (s.reg 30).getLsbD 0 = false ∧ (t.reg 30).getLsbD 0 = true) :=
  ⟨⟨_, rfl, by decide⟩, ⟨_, rfl, by decide⟩⟩

/-- Obligations.CarryChainFromSecondToDay: each stage at its limit, with the next field outside its domain. -/
theorem witness_carry_chain_of_the_day :
    bcdIn ((cal [0x58, 0x5A] true).reg 0) 0 60 = true ∧ bcdIn ((cal [0x59, 0x58, 0x2A] true).reg 1) 0 60 = true
    ∧ bcdIn ((cal [0x59, 0x59, 0x22, 0x00] true).reg 2) 0 24 = true
    ∧ (cal [0x59, 0x59, 0x23, 0x07, 0x32] true).reg 0 = 0x59 ∧ (cal [0x59, 0x59, 0x23, 0x07, 0x32] true).reg 1 = 0x59
    ∧ (cal [0x59, 0x59, 0x23, 0x07, 0x32] true).reg 2 = 0x23
    ∧ ((cal [0x59, 0x59, 0x23, 0x07, 0x32] true).reg 3).toNat = 7
    ∧ dateStepOk ((cal [0x59, 0x59, 0x23, 0x07, 0x31, 0x12] true).reg 4) ((cal [0x59, 0x59, 0x23, 0x07, 0x31, 0x12] true).reg 5)
      true = true
    ∧ (let u := cal [0x59, 0x59, 0x23, 0x07, 0x30, 0x12, 0x9A] true
       dateStepOk (u.reg 4) (u.reg 5) u.leap = true ∧ bcd2dec (u.reg 4) ≠ mlen (bcd2dec (u.reg 5)) u.leap
       ∧ ∃ t, exec .actTimeInc u = .next t ∧ t.reg 4 = 0x31 ∧ t.reg 5 = 0x12 ∧ t.reg 6 = 0x9A)
    ∧ ∃ t, exec .actTimeInc (cal [0x59, 0x59, 0x23, 0x07, 0x31, 0x12] true) = .next t := by
  refine ⟨by decide, by decide, by decide, by decide, by decide, by decide, by decide, by decide,
    ⟨by decide, by decide, _, rfl, by decide⟩, _, rfl⟩

/-- Obligations.CarryChainFromMonthToCentury: November 30, and the last day of 9999 (T27, T39). -/
theorem witness_carry_chain_of_the_year :
    [cal [0x59, 0x59, 0x23, 0x06, 0x30, 0x11, 0x00, 0x20] true, cal [0x59, 0x59, 0x23, 0x05, 0x31, 0x12, 0x99, 0x99] false].all
      (fun s => decide (s.reg 0 = 0x59 ∧ s.reg 1 = 0x59 ∧ s.reg 2 = 0x23 ∧ 1 ≤ (s.reg 3).toNat ∧ (s.reg 3).toNat ≤ 7
        ∧ bcdIn (s.reg 5) 1 13 = true ∧ isBcd (s.reg 4) = true ∧ bcd2dec (s.reg 4) = mlen (bcd2dec (s.reg 5)) s.leap
        ∧ isBcd (s.reg 6) = true ∧ isBcd (s.reg 7) = true)) = true
    ∧ ∃ t, exec .actTimeInc (cal [0x59, 0x59, 0x23, 0x05, 0x31, 0x12, 0x99, 0x99] false) = .next t := ⟨by decide, _, rfl⟩

/-- Obligations.TimeIncrementIsCivilSuccessor and SecondsOfADayAdvanceTheDateByOne: the first and the last instant of the
calendar; a second of 59 and one below. -/
theorem witness_valid_calendar :
    State.reset.calValid = true ∧ State.reset.reg 0 ≠ 0x59
    ∧ (cal [0x59, 0x59, 0x23, 0x07, 0x31, 0x12, 0x99, 0x99] false).calValid = true := by decide

/-- Obligations.UnreachedStagesAreNotAffected: the example of R98, and the largest second of its domain. -/
theorem witness_unreached_stages :
    bcdIn ((withRegs [(0, 0x10), (4, 0xFF)]).reg 0) 0 59 = true ∧ bcdIn ((withRegs [(0, 0x58)]).reg 0) 0 59 = true := by decide

/-- Obligations.TimeIncrementFrameInEveryState: a marked run, and a second outside its domain. -/
theorem witness_outside_the_domain :
    { State.reset with marked := true }.marked = true ∧ bcdIn ((withRegs [(0, 0x5A)]).reg 0) 0 60 = false
    ∧ bcdIn ((withRegs [(0, 0x60)]).reg 0) 0 60 = false := by decide

/-- Obligations.BytewiseStepAgrees: the largest byte of each of the eight limits. -/
theorem witness_bytewise_step :
    [((60, 0), 0x59#8), ((24, 0), 0x23#8), ((13, 1), 0x12#8), ((100, 0), 0x99#8), ((29, 1), 0x28#8),
      ((30, 1), 0x29#8), ((31, 1), 0x30#8), ((32, 1), 0x31#8)].all
      (fun (x : (Nat × Nat) × Byte) => isBcd x.2 && decide (bcd2dec x.2 < x.1.1)) = true := by decide

/-- Obligations.LeapRuleWithoutDivision: a century year and the year before it. -/
theorem witness_leap_rule : isBcd 0x20 = true ∧ isBcd 0x00 = true ∧ isBcd 0x99 = true := by decide

/-- Obligations.StepRunsTheDecodedEvent: an event is there, and none is. -/
theorem witness_step :
    { State.reset with inputs := [eventInput .tick] }.inputs = eventInput .tick :: [] ∧ State.reset.inputs = [] := by decide

/-- Obligations.EveryStepKeepsTheInvariant: the reset state, and a running one. -/
theorem witness_invariant :
    (State.reset.inv = true ∧ ∃ t, step State.reset = .next t)
    ∧ (let s := { withRegs [(0, 0x59), (30, 0x21)] with phase := 15, af := 0x7D, inputs := [eventInput .tick] }
       s.inv = true ∧ ∃ t, step s = .next t) :=
  ⟨⟨by decide, _, rfl⟩, ⟨by decide, _, rfl⟩⟩

/-- Obligations.CanonicalRegisterFileIsUnique: a register file with both ends listed. -/
theorem witness_canonical : Memory.wf [(0, 0x01), (3, 0x00), (30, 0xFF)] = true := by decide

/-- Obligations.EventWordsRoundTrip and RowKeysRoundTrip. -/
theorem witness_encodings :
    (Instr.wr 0xFF).wf = true ∧ (0x1F#5).getLsbD 0 = true ∧ 8 < (9#4).toNat ∧ 8 < (15#4).toNat := by decide

end Sys2Proof.Tests
end

/-! ### The alarm output latches (42_alarm.md R111 to R113): which operations move them, and how -/

namespace Sys2Proof.Machine

/-- The four alarm output latches `INT_U`, `INT_A[1]`, `INT_A[2]`, `INT_A[3]` (10_state.md R23). -/
def State.alarmLatches (s : State) : Bool × Bool × Bool × Bool := (s.intU, s.intA1, s.intA2, s.intA3)

theorem State.alarmLatches_eq_iff {s : State} {u a1 a2 a3 : Bool} :
    s.alarmLatches = (u, a1, a2, a3) ↔ s.intU = u ∧ s.intA1 = a1 ∧ s.intA2 = a2 ∧ s.intA3 = a3 := by
  simp only [State.alarmLatches, Prod.mk.injEq]

theorem State.alarmLatches_ite {c : Prop} [Decidable c] {s t u : State} (ht : t.alarmLatches = s.alarmLatches)
    (hu : u.alarmLatches = s.alarmLatches) : (if c then t else u).alarmLatches = s.alarmLatches := by
  split <;> assumption

/-! #### Updates that leave the latches alone -/

section Updates

variable (s : State)

@[simp] theorem State.setReg_alarmLatches (i : Nat) (v : Byte) : (s.setReg i v).alarmLatches = s.alarmLatches := rfl
@[simp] theorem State.advancePhase_alarmLatches : s.advancePhase.alarmLatches = s.alarmLatches := rfl
@[simp] theorem State.finishWrite_alarmLatches : s.finishWrite.alarmLatches = s.alarmLatches := rfl
@[simp] theorem State.storeAtOffset_alarmLatches (b : Byte) : (s.storeAtOffset b).alarmLatches = s.alarmLatches := rfl
@[simp] theorem State.storeCfg_alarmLatches (b : Byte) : (s.storeCfg b).alarmLatches = s.alarmLatches := rfl
@[simp] theorem State.storeAif_alarmLatches (b : Byte) : (s.storeAif b).alarmLatches = s.alarmLatches := rfl

@[simp] theorem State.checkLeapYear_alarmLatches : s.checkLeapYear.alarmLatches = s.alarmLatches := by
  rw [State.checkLeapYear_eq]; rfl

@[simp] theorem State.tick_alarmLatches : s.tick.alarmLatches = s.alarmLatches := by
  rw [State.tick, State.requestFlag_eq]; rfl

@[simp] theorem State.busWrite_alarmLatches (b : Byte) : (s.busWrite b).alarmLatches = s.alarmLatches := by
  simp only [State.busWrite, State.finishWrite_alarmLatches]
  split_ifs <;> simp

@[simp] theorem State.releaseResult_alarmLatches : s.releaseResult.alarmLatches = s.alarmLatches :=
  State.alarmLatches_ite rfl rfl

@[simp] theorem State.busRead_alarmLatches : s.busRead.alarmLatches = s.alarmLatches :=
  State.alarmLatches_ite rfl (State.alarmLatches_ite s.releaseResult_alarmLatches (State.alarmLatches_ite rfl rfl))

end Updates

/-! #### ACT_TIME_INC changes its own part of the state alone -/

theorem State.CalFrame.alarmLatches {s t : State} (h : s.CalFrame t) : t.alarmLatches = s.alarmLatches := by
  obtain ⟨⟨m, l, f, k, rfl⟩, -, -⟩ := h
  rfl

/-- The shape that the stages of the carry chain share (41_calendar.md R82): the field is stored and the operation goes on with
the stage above on a carry, or ends; outside the field's domain the rest is unspecified. -/
theorem State.calFrame_carryStage {s : State} {i : Nat} {v : Byte} {ok carry : Prop} [Decidable ok] [Decidable carry]
    {above finish : State → State} (hi : i ≤ 7) (habove : ∀ u : State, u.CalFrame (above u))
    (hfinish : ∀ u : State, u.CalFrame (finish u)) :
    s.CalFrame (if ok then if carry then above (s.setReg i v) else finish (s.setReg i v) else s.unspecifiedFrom i) := by
  split_ifs
  · exact (State.calFrame_setReg s (.inl hi) v).trans (habove _)
  · exact (State.calFrame_setReg s (.inl hi) v).trans (hfinish _)
  · exact State.calFrame_unspecifiedFrom s i

theorem State.calFrame_leapThenAlarms (s : State) : s.CalFrame s.checkLeapYear.checkAlarms :=
  (State.calFrame_checkLeapYear s).trans (State.calFrame_checkAlarms _)

theorem State.calFrame_centuryStage (s : State) : s.CalFrame s.centuryStage := by
  unfold State.centuryStage
  split
  · exact (State.calFrame_setReg s (.inl le_rfl) _).trans (State.calFrame_leapThenAlarms _)
  · exact State.calFrame_unspecifiedFrom s 7

theorem State.calFrame_yearStage (s : State) : s.CalFrame s.yearStage :=
  State.calFrame_carryStage (by decide) State.calFrame_centuryStage State.calFrame_leapThenAlarms

theorem State.calFrame_monthStage (s : State) : s.CalFrame s.monthStage :=
  State.calFrame_carryStage (by decide) State.calFrame_yearStage State.calFrame_checkAlarms

theorem State.calFrame_dateStage (s : State) : s.CalFrame s.dateStage :=
  State.calFrame_carryStage (by decide) State.calFrame_monthStage State.calFrame_checkAlarms

theorem State.calFrame_dayStage (s : State) : s.CalFrame s.dayStage := by
  unfold State.dayStage
  split
  · exact (State.calFrame_setReg s (.inl (by decide)) _).trans (State.calFrame_dateStage _)
  · exact State.calFrame_unspecifiedFrom s 3

theorem State.calFrame_hourStage (s : State) : s.CalFrame s.hourStage :=
  State.calFrame_carryStage (by decide) State.calFrame_dayStage State.calFrame_checkAlarms

theorem State.calFrame_minuteStage (s : State) : s.CalFrame s.minuteStage :=
  State.calFrame_carryStage (by decide) State.calFrame_hourStage State.calFrame_checkAlarms

theorem State.calFrame_timeInc (s : State) : s.CalFrame s.timeInc :=
  State.calFrame_carryStage (by decide) State.calFrame_minuteStage State.CalFrame.refl

/-! #### What each operation does to the latches -/

theorem State.perform_alarmLatches_of_ne (s : State) {a : Action} (hint : a ≠ .alarmInt) (hrst : a ≠ .alarmRst) :
    (s.perform a).alarmLatches = s.alarmLatches := by
  cases a with
  | alarmInt => exact absurd rfl hint
  | alarmRst => exact absurd rfl hrst
  | diag | toggle | tempDeassert => rfl
  | timeInc => exact (State.calFrame_timeInc s).alarmLatches
  | convDone =>
    simp only [State.perform, State.convDone, State.setRdy, State.setReg_alarmLatches, State.spendRaw]
    split <;> rfl
  | tempAssert | convStart => exact State.alarmLatches_ite rfl rfl

theorem exec_actionInstr (a : Action) (s : State) : exec a.instr s = .next (s.perform a) := by cases a <;> rfl

theorem exec_actionInstr_alarmLatches {a : Action} {s t : State} (h : exec a.instr s = .next t) (hint : a ≠ .alarmInt)
    (hrst : a ≠ .alarmRst) : t.alarmLatches = s.alarmLatches := by
  rw [exec_actionInstr] at h
  cases h
  exact s.perform_alarmLatches_of_ne hint hrst

theorem State.fgStep_of_choose {s : State} {a : Action} (h : s.choose = some a) :
    s.fgStep = (s.spendChoice.clearFlag a).perform a := by
  simp only [State.fgStep, h]

theorem State.performs_iff {s : State} {i : Instr} {a : Action} :
    s.performs i a = true ↔ i = a.instr ∨ i = .fg ∧ s.choose = some a := by
  simp only [State.performs, Bool.or_eq_true, Bool.and_eq_true, decide_eq_true_eq]

/-- The choice and the cleared flag of an FG_STEP are no input of ACT_ALARM_INT (40_scheduler.md R70, R111). -/
theorem State.actAlarmInt_alarmLatches_of_chosen (s : State) (a : Action) :
    (s.spendChoice.clearFlag a).actAlarmInt.alarmLatches = s.actAlarmInt.alarmLatches := by
  rw [State.clearFlag_eq, State.spendChoice_eq]; rfl

@[simp] theorem State.chosen_alarmLatches (s : State) (a : Action) :
    (s.spendChoice.clearFlag a).alarmLatches = s.alarmLatches := by
  rw [State.clearFlag_eq, State.spendChoice_eq]; rfl

/-- An FG_STEP moves the latches only by the action it performs, ACT_ALARM_INT or ACT_ALARM_RST. -/
theorem State.fgStep_alarmLatches_cases (s : State) :
    s.fgStep.alarmLatches = s.alarmLatches
    ∨ (s.choose = some .alarmInt ∧ s.fgStep.alarmLatches = s.actAlarmInt.alarmLatches)
    ∨ (s.choose = some .alarmRst ∧ s.fgStep.alarmLatches = (false, false, false, false)) := by
  obtain ⟨-, heq⟩ | ⟨a, hchoose, heq⟩ := s.fgStep_cases
  · exact .inl (by rw [heq])
  rw [heq]
  by_cases hint : a = .alarmInt
  · subst hint
    exact .inr (.inl ⟨hchoose, s.actAlarmInt_alarmLatches_of_chosen _⟩)
  by_cases hrst : a = .alarmRst
  · subst hrst
    exact .inr (.inr ⟨hchoose, rfl⟩)
  · exact .inl ((State.perform_alarmLatches_of_ne _ hint hrst).trans (s.chosen_alarmLatches a))

/-- Everything an operation can do to the four latches: nothing, what ACT_ALARM_INT does, or all four cleared, the last by
ACT_ALARM_RST and RESET alone (R111, R113, R175). -/
theorem exec_alarmLatches_cases {i : Instr} {s t : State} (h : exec i s = .next t) :
    t.alarmLatches = s.alarmLatches
    ∨ (s.performs i .alarmInt = true ∧ t.alarmLatches = s.actAlarmInt.alarmLatches)
    ∨ ((s.performs i .alarmRst = true ∨ i = .reset) ∧ t.alarmLatches = (false, false, false, false)) := by
  cases i with
  | nop | adc | setoff b => cases h; exact .inl rfl
  | tick => cases h; exact .inl s.tick_alarmLatches
  | phAlarmInt | phAlarmRst | phToggleMid | phTempAssert | phTimeInc | phTempDeassert | phToggleEnd =>
    cases h; exact .inl (State.alarmLatches_ite rfl s.tick_alarmLatches)
  | phDiag =>
    cases h
    exact .inl (State.alarmLatches_ite ((State.advancePhase_alarmLatches _).trans (State.alarmLatches_ite rfl rfl))
      s.tick_alarmLatches)
  | wr b => cases h; exact .inl (s.busWrite_alarmLatches b)
  | wrTime b | wrAlarm b | wrTemp b | wrCfg b | wrAie b | wrAif b | wrOor b =>
    cases h; exact .inl (State.alarmLatches_ite rfl (s.busWrite_alarmLatches b))
  | wrYear b =>
    cases h
    exact .inl (State.alarmLatches_ite (s.storeAtOffset b).checkLeapYear_alarmLatches (s.busWrite_alarmLatches b))
  | rd => cases h; exact .inl s.busRead_alarmLatches
  | rdPlain | rdTemph | rdOor => cases h; exact .inl (State.alarmLatches_ite rfl s.busRead_alarmLatches)
  | rdTempl => cases h; exact .inl (State.alarmLatches_ite s.releaseResult_alarmLatches s.busRead_alarmLatches)
  | fg =>
    cases h
    simpa [State.performs_iff, Action.instr] using s.fgStep_alarmLatches_cases
  | actAlarmInt => cases h; exact .inr (.inl ⟨State.performs_iff.mpr (.inl rfl), rfl⟩)
  | actAlarmRst => cases h; exact .inr (.inr ⟨.inl (State.performs_iff.mpr (.inl rfl)), rfl⟩)
  | reset => cases h; exact .inr (.inr ⟨.inr rfl, State.checkLeapYear_alarmLatches _⟩)
  | actDiag => exact .inl (exec_actionInstr_alarmLatches (a := .diag) h (by decide) (by decide))
  | actToggle => exact .inl (exec_actionInstr_alarmLatches (a := .toggle) h (by decide) (by decide))
  | actTempAssert => exact .inl (exec_actionInstr_alarmLatches (a := .tempAssert) h (by decide) (by decide))
  | actTimeInc => exact .inl (exec_actionInstr_alarmLatches (a := .timeInc) h (by decide) (by decide))
  | actTempDeassert => exact .inl (exec_actionInstr_alarmLatches (a := .tempDeassert) h (by decide) (by decide))
  | actConvDone => exact .inl (exec_actionInstr_alarmLatches (a := .convDone) h (by decide) (by decide))
  | convStart => exact .inl (exec_actionInstr_alarmLatches (a := .convStart) h (by decide) (by decide))

/-! #### The four latches are cleared by ACT_ALARM_RST and RESET alone (R113) -/

/-- An FG_STEP that consumes flag 2 clears that flag and the four latches, and leaves the register file. -/
theorem State.fgStep_of_choose_alarmRst {s : State} (h : s.choose = some .alarmRst) :
    s.fgStep.af.getLsbD 2 = false ∧ s.fgStep.alarmLatches = (false, false, false, false) ∧ s.fgStep.mem = s.mem := by
  rw [State.fgStep_of_choose h, State.clearFlag_eq, State.spendChoice_eq]
  refine ⟨?_, rfl, rfl⟩
  exact getLsbD_setBit s.af 2 2 false

/-- What keeps the latches, or does to them what ACT_ALARM_INT does, leaves an asserted output asserted (R111). -/
theorem State.asserted_of_alarmLatches {s t : State}
    (h : t.alarmLatches = s.alarmLatches ∨ t.alarmLatches = s.actAlarmInt.alarmLatches) :
    (s.intU = true → t.intU = true) ∧ (s.intA1 = true → t.intA1 = true) ∧ (s.intA2 = true → t.intA2 = true)
      ∧ (s.intA3 = true → t.intA3 = true) := by
  rcases h with h | h <;> obtain ⟨hU, h1, h2, h3⟩ := State.alarmLatches_eq_iff.mp h
  · exact ⟨hU.trans, h1.trans, h2.trans, h3.trans⟩
  · simp +contextual [hU, h1, h2, h3, State.actAlarmInt]

/-- Settles O14, from what each operation can do to the four latches. -/
theorem onlyResetActionDeassertsAlarmOutputs : Obligations.OnlyResetActionDeassertsAlarmOutputs := by
  refine ⟨fun s => rfl, fun s hchoose => ?_, fun i s t h hrst hreset => ?_⟩
  · obtain ⟨haf, hlatches, hmem⟩ := State.fgStep_of_choose_alarmRst hchoose
    obtain ⟨hU, h1, h2, h3⟩ := State.alarmLatches_eq_iff.mp hlatches
    exact ⟨s.fgStep, rfl, haf, hU, h1, h2, h3, hmem⟩
  · obtain hkept | ⟨-, hint⟩ | ⟨hperformed | hi, -⟩ := exec_alarmLatches_cases h
    · exact State.asserted_of_alarmLatches (.inl hkept)
    · exact State.asserted_of_alarmLatches (.inr hint)
    · exact absurd hperformed (by simp [hrst])
    · exact absurd hi hreset

end Sys2Proof.Machine

/-! ### The bus port (44_bus_port.md): BUS_SET_OFFSET, WR.TEMP, RD.PLAIN and RD.TEMPH -/

namespace Sys2Proof.Machine

open Sys2Proof.Laws.EncodeKind (decode_setoff)

/-! #### Event words as numbers -/

/-- The number of an event word: `ev` stands above the eight bits of `din` (30_encoding.md R46). -/
theorem toNat_eventWord (ev : BitVec 3) (b : Byte) : (eventWord ev b).toNat = 0x100 * ev.toNat + b.toNat := by
  rw [eventWord, BitVec.toNat_append, ← Nat.shiftLeft_add_eq_or_of_lt b.isLt, Nat.shiftLeft_eq]
  omega

theorem ofNat_eventWord (ev : BitVec 3) (b : Byte) :
    BitVec.ofNat 11 (0x100 * ev.toNat + b.toNat) = eventWord ev b := by
  rw [← toNat_eventWord, BitVec.ofNat_toNat, BitVec.setWidth_eq]

/-! #### The three operations -/

theorem exec_setoff (b : Byte) (s : State) : exec (.setoff b) s = .next { s with offset := b } := rfl

theorem exec_wr (b : Byte) (s : State) : exec (.wr b) s = .next (s.busWrite b) := rfl

theorem exec_rd (s : State) : exec .rd s = .next s.busRead := rfl

/-! #### What BUS_WRITE and BUS_READ do in the three classes (30_encoding.md R59, R60) -/

theorem State.busWrite_of_temp {s : State} (b : Byte) (hlo : 26 ≤ s.offset.toNat) (hhi : s.offset.toNat ≤ 27) :
    s.busWrite b = s.finishWrite := by
  have h5 : ¬ s.offset.toNat ≤ 5 := by omega
  have h7 : ¬ s.offset.toNat ≤ 7 := by omega
  have h25 : ¬ s.offset.toNat ≤ 25 := by omega
  simp only [State.busWrite, if_neg h5, if_neg h7, if_neg h25, if_pos hhi]

theorem State.busRead_of_plain {s : State}
    (h : s.offset.toNat ≤ 25 ∨ (28 ≤ s.offset.toNat ∧ s.offset.toNat ≤ 30)) :
    s.busRead = s.finishRead (s.reg s.offset.toNat) := by
  have h26 : s.offset.toNat ≠ 26 := by omega
  have h27 : s.offset.toNat ≠ 27 := by omega
  have h30 : s.offset.toNat ≤ 30 := by omega
  simp only [State.busRead, if_neg h26, if_neg h27, if_pos h30]

theorem State.busRead_of_temph {s : State} (h : s.offset.toNat = 26) :
    s.busRead = { s with highRead := true }.finishRead (s.reg 26) := by
  simp only [State.busRead, if_pos h]

/-! #### A class is the operation itself, whatever `OFFSET` is (log entry 8) -/

theorem exec_wrTemp (b : Byte) (s : State) : exec (.wrTemp b) s = .next (s.busWrite b) :=
  congrArg Host.Outcome.next (ite_eq_right_iff.mpr fun ⟨hlo, hhi⟩ => (State.busWrite_of_temp b hlo hhi).symm)

theorem exec_rdPlain (s : State) : exec .rdPlain s = .next s.busRead :=
  congrArg Host.Outcome.next (ite_eq_right_iff.mpr fun h => (State.busRead_of_plain h).symm)

theorem exec_rdTemph (s : State) : exec .rdTemph s = .next s.busRead :=
  congrArg Host.Outcome.next (ite_eq_right_iff.mpr fun h => (State.busRead_of_temph h).symm)

/-! #### The obligations -/

/-- Settles O24: the word 0x400 + b is the event word of `SETOFF b`, and `SETOFF b` writes the pointer alone. -/
theorem setOffsetLoadsThePointer : Obligations.SetOffsetLoadsThePointer := by
  intro s b
  have hword : BitVec.ofNat 11 (0x400 + b.toNat) = eventWord 0b100 b := ofNat_eventWord 0b100 b
  exact ⟨by rw [hword, decode_setoff], exec_setoff b s⟩

/-- Settles O27: at offsets 26 and 27 a write is the end of a write and nothing else. -/
theorem temperatureRegistersIgnoreWrites : Obligations.TemperatureRegistersIgnoreWrites := by
  intro s b hoffset
  obtain ⟨hlo, hhi⟩ : 26 ≤ s.offset.toNat ∧ s.offset.toNat ≤ 27 := by
    obtain h | h := hoffset <;> rw [h] <;> decide
  have hwrite : s.busWrite b = { s with offset := s.offset + 1, status := some true } := State.busWrite_of_temp b hlo hhi
  exact ⟨by rw [exec_wr, hwrite], by rw [exec_wrTemp, hwrite]⟩

/-- Settles O32: at these offsets a read is the end of a read with the register's value. -/
theorem plainReadsReturnTheRegister : Obligations.PlainReadsReturnTheRegister := by
  intro s hoffset
  have hread : s.busRead = { s with offset := s.offset + 1, dout := some (s.reg s.offset.toNat) } :=
    State.busRead_of_plain hoffset
  exact ⟨by rw [exec_rd, hread], by rw [exec_rdPlain, hread]⟩

/-- Settles O33: at offset 26 the record is set before the end of the read, which never looks at `RDY`. -/
theorem highByteReadSetsTheRecord : Obligations.HighByteReadSetsTheRecord := by
  intro s hoffset
  have hnext : s.offset + 1 = 27 := by rw [hoffset]; rfl
  have hread : s.busRead = { s with highRead := true, offset := 27, dout := some (s.reg 26) } := by
    rw [← hnext]
    exact State.busRead_of_temph (by rw [hoffset]; rfl)
  exact ⟨by rw [exec_rd, hread], by rw [exec_rdTemph, hread]⟩

end Sys2Proof.Machine

/-! ### RESET (70_reset_and_hazards.md R175, R176): what the empty register file reads as -/

namespace Sys2Proof.Machine

/-- The offsets that R176 does not name read as 0x00 where no cell is listed. -/
theorem Memory.unlisted_of_not_mem {a : Nat} (h : a ∉ [3, 4, 5, 7]) : Memory.unlisted a = 0x00 := by
  unfold Memory.unlisted
  split <;> simp at h ⊢

theorem State.reg_of_mem_nil {s : State} (h : s.mem = []) (a : Nat) : s.reg a = Memory.unlisted a := by
  rw [State.reg, h, Memory.read_nil]

/-! #### RESET answers a next state with no cell listed -/

theorem exec_reset (s : State) : exec .reset s = .next s.resetBlock := rfl

@[simp] theorem State.resetBlock_mem (s : State) : s.resetBlock.mem = [] := State.checkLeapYear_mem _

/-! #### What a zero register says -/

theorem State.ded_of_cfg_zero {s : State} (h : s.reg 28 = 0) : s.ded = false := by
  rw [State.ded, h]; exact BitVec.getLsbD_zero

theorem State.conv_of_cfg_zero {s : State} (h : s.reg 28 = 0) : s.conv = false := by
  rw [State.conv, h]; exact BitVec.getLsbD_zero

theorem State.rdy_of_cfg_zero {s : State} (h : s.reg 28 = 0) : s.rdy = false := by
  rw [State.rdy, h]; exact BitVec.getLsbD_zero

/-- Settles O1: RESET and the reset state list no cell, and the consequences are zero bytes read bit by bit. -/
theorem resetRegisterFile : Obligations.ResetRegisterFile := by
  intro s
  refine ⟨s.resetBlock, exec_reset s, fun u hu => ?_⟩
  have hmem : u.mem = [] := by
    obtain rfl | rfl : u = s.resetBlock ∨ u = State.reset := by simpa using hu
    · exact s.resetBlock_mem
    · rfl
  have hreg : ∀ a, u.reg a = Memory.unlisted a := State.reg_of_mem_nil hmem
  have hzero : ∀ a, a ∉ [3, 4, 5, 7] → u.reg a = 0x00 := fun a ha => (hreg a).trans (Memory.unlisted_of_not_mem ha)
  have hcfg : u.reg 28 = 0x00 := hzero 28 (by decide)
  have halarm : ∀ n, (u.alarmHour n).getLsbD 7 = false := fun n => by
    rw [State.alarmHour, hzero _ (by simp; omega)]; rfl
  exact ⟨hreg 3, hreg 4, hreg 5, hreg 7, fun a _ ha => hzero a ha, fun n _ _ => halarm n,
    by rw [hzero 29 (by decide)]; rfl, by rw [hzero 30 (by decide)]; rfl,
    State.conv_of_cfg_zero hcfg, State.rdy_of_cfg_zero hcfg, State.ded_of_cfg_zero hcfg⟩

end Sys2Proof.Machine

/-! ### Every row of the table as one of nine operations -/

namespace Sys2Proof.Machine

/-- What a row of the table is in the end, the rows of one operation taken together (log entry 8). -/
inductive Op
  | nop
  | tick
  | adc
  | fg
  | setoff (b : Byte)
  | write (b : Byte)
  | read
  | reset
  | action (a : Action)

/-- The state after an operation. -/
def Op.run : Op → State → State
  | .nop, s => s
  | .tick, s => s.tick
  | .adc, s => s.setFlag 7
  | .fg, s => s.fgStep
  | .setoff b, s => { s with offset := b }
  | .write b, s => s.busWrite b
  | .read, s => s.busRead
  | .reset, s => s.resetBlock
  | .action a, s => s.perform a

end Sys2Proof.Machine

namespace Sys2Proof

/-- The operation of a row. -/
def Instr.op : Instr → Machine.Op
  | .nop => .nop
  | .tick | .phAlarmInt | .phDiag | .phAlarmRst | .phToggleMid => .tick
  | .phTempAssert | .phTimeInc | .phTempDeassert | .phToggleEnd => .tick
  | .adc => .adc
  | .fg => .fg
  | .setoff b => .setoff b
  | .wr b | .wrTime b | .wrYear b | .wrAlarm b | .wrTemp b | .wrCfg b | .wrAie b | .wrAif b | .wrOor b => .write b
  | .rd | .rdPlain | .rdTemph | .rdTempl | .rdOor => .read
  | .reset => .reset
  | .actAlarmInt => .action .alarmInt
  | .actDiag => .action .diag
  | .actAlarmRst => .action .alarmRst
  | .actToggle => .action .toggle
  | .actTempAssert => .action .tempAssert
  | .actTimeInc => .action .timeInc
  | .actTempDeassert => .action .tempDeassert
  | .actConvDone => .action .convDone
  | .convStart => .action .convStart

end Sys2Proof

namespace Sys2Proof.Machine

/-! #### BUS_WRITE and BUS_READ in each class (30_encoding.md R59, R60) -/

section Classes

variable {s : State}

theorem State.busWrite_of_time (b : Byte) (h : s.offset.toNat ≤ 5) : s.busWrite b = (s.storeAtOffset b).finishWrite := by
  simp only [State.busWrite, if_pos h]

theorem State.busWrite_of_year (b : Byte) (hlo : 6 ≤ s.offset.toNat) (hhi : s.offset.toNat ≤ 7) :
    s.busWrite b = (s.storeAtOffset b).checkLeapYear.finishWrite := by
  simp only [State.busWrite]
  rw [if_neg (by omega), if_pos hhi]

theorem State.busWrite_of_alarm (b : Byte) (hlo : 8 ≤ s.offset.toNat) (hhi : s.offset.toNat ≤ 25) :
    s.busWrite b = (s.storeAtOffset b).finishWrite := by
  simp only [State.busWrite]
  rw [if_neg (by omega), if_neg (by omega), if_pos hhi]

theorem State.busWrite_of_cfg (b : Byte) (h : s.offset.toNat = 28) : s.busWrite b = (s.storeCfg b).finishWrite := by
  simp only [State.busWrite, h]; rfl

theorem State.busWrite_of_aie (b : Byte) (h : s.offset.toNat = 29) : s.busWrite b = (s.storeAtOffset b).finishWrite := by
  simp only [State.busWrite, h]; rfl

theorem State.busWrite_of_aif (b : Byte) (h : s.offset.toNat = 30) : s.busWrite b = (s.storeAif b).finishWrite := by
  simp only [State.busWrite, h]; rfl

theorem State.busWrite_of_oor (b : Byte) (h : 31 ≤ s.offset.toNat) : s.busWrite b = s.finishWrite := by
  simp only [State.busWrite]
  rw [if_neg (by omega), if_neg (by omega), if_neg (by omega), if_neg (by omega), if_neg (by omega), if_neg (by omega),
    if_neg (by omega)]

theorem State.busRead_of_templ (h : s.offset.toNat = 27) : s.busRead = s.releaseResult.finishRead (s.reg 27) := by
  simp only [State.busRead, h]; rfl

theorem State.busRead_of_oor (h : 31 ≤ s.offset.toNat) : s.busRead = s.finishRead 0x00 := by
  simp only [State.busRead]
  rw [if_neg (by omega), if_neg (by omega), if_neg (by omega)]

end Classes

/-! #### A phase line is the tick of the state, a bus class the access at `OFFSET` -/

/-- The last phase number belongs to the last tick of the cycle (R56, R57). -/
theorem State.last_tick_of_key {s : State} (h : s.tickKey = 16) : s.phase + 1 = s.conf.ticks := by
  rw [State.tickKey] at h
  obtain hN | hN := ticks_eq s.conf <;> rw [hN] at h ⊢ <;> omega

theorem State.tick_of_key {s : State} {k : Nat} (h : s.tickKey = k) : s.tick = (s.requestFlag k).advancePhase := by
  rw [State.tick, h]

theorem State.tick_of_last_key {s : State} (h : s.tickKey = 16) : s.tick = { s.setFlag 3 with phase := 0 } := by
  rw [State.tick_of_key h]
  exact congrArg (fun p => { s.setFlag 3 with phase := p }) (if_pos (State.last_tick_of_key h))

/-- A row outside its key acts as the operation, so it is enough that inside its key it does too. -/
theorem next_ite_eq {c : Prop} [Decidable c] {t u : State} (h : c → t = u) :
    (.next (if c then t else u) : Host.Outcome State Fault Refusal) = .next u :=
  congrArg Host.Outcome.next (ite_eq_right_iff.mpr h)

/-- Every row completes, and answers the state of its operation. -/
theorem exec_eq (i : Instr) (s : State) : exec i s = .next (i.op.run s) := by
  cases i with
  | nop | tick | adc | fg | setoff b | wr b | rd | reset => rfl
  | actAlarmInt | actDiag | actAlarmRst | actToggle | actTempAssert | actTimeInc | actTempDeassert | actConvDone
  | convStart => rfl
  | phAlarmInt | phDiag | phAlarmRst | phToggleMid | phTempAssert | phTimeInc | phTempDeassert =>
    exact next_ite_eq fun h => (State.tick_of_key h).symm
  | phToggleEnd => exact next_ite_eq fun h => (State.tick_of_last_key h).symm
  | wrTime b => exact next_ite_eq fun h => (State.busWrite_of_time b h).symm
  | wrYear b => exact next_ite_eq fun h => (State.busWrite_of_year b h.1 h.2).symm
  | wrAlarm b => exact next_ite_eq fun h => (State.busWrite_of_alarm b h.1 h.2).symm
  | wrTemp b => exact exec_wrTemp b s
  | wrCfg b => exact next_ite_eq fun h => (State.busWrite_of_cfg b h).symm
  | wrAie b => exact next_ite_eq fun h => (State.busWrite_of_aie b h).symm
  | wrAif b => exact next_ite_eq fun h => (State.busWrite_of_aif b h).symm
  | wrOor b => exact next_ite_eq fun h => (State.busWrite_of_oor b h).symm
  | rdPlain => exact exec_rdPlain s
  | rdTemph => exact exec_rdTemph s
  | rdTempl => exact next_ite_eq fun h => (State.busRead_of_templ h).symm
  | rdOor => exact next_ite_eq fun h => (State.busRead_of_oor h).symm

theorem run_of_exec {i : Instr} {s t : State} (h : exec i s = .next t) : t = i.op.run s := by
  rw [exec_eq] at h
  exact (Host.Outcome.next.inj h).symm

/-! #### The groups of rows, by their operation -/

theorem isTick_iff {i : Instr} : i.isTick = true ↔ i.op = .tick := by cases i <;> simp [Instr.isTick, Instr.op]

theorem isWrite_iff {i : Instr} {b : Byte} : i.isWrite b = true ↔ i.op = .write b := by
  cases i <;> simp [Instr.isWrite, Instr.op]

theorem isRead_iff {i : Instr} : i.isRead = true ↔ i.op = .read := by cases i <;> simp [Instr.isRead, Instr.op]

theorem eq_reset_iff {i : Instr} : i = .reset ↔ i.op = .reset := by cases i <;> simp [Instr.op]

theorem eq_fg_iff {i : Instr} : i = .fg ↔ i.op = .fg := by cases i <;> simp [Instr.op]

theorem eq_adc_iff {i : Instr} : i = .adc ↔ i.op = .adc := by cases i <;> simp [Instr.op]

theorem eq_setoff_iff {i : Instr} {b : Byte} : i = .setoff b ↔ i.op = .setoff b := by cases i <;> simp [Instr.op]

theorem eq_actionInstr_iff {i : Instr} {a : Action} : i = a.instr ↔ i.op = .action a := by
  cases a <;> cases i <;> simp [Instr.op, Action.instr]

theorem performs_iff_op {s : State} {i : Instr} {a : Action} :
    s.performs i a = true ↔ i.op = .action a ∨ i.op = .fg ∧ s.choose = some a := by
  rw [State.performs_iff, eq_actionInstr_iff, eq_fg_iff]

end Sys2Proof.Machine

/-! ### Obligations that follow from the operation of a row alone -/

namespace Sys2Proof.Machine

/-- Settles O50: every row answers the state of its operation, a step is such a row, and no fault has a constructor. -/
theorem everyOperationCompletes : Obligations.EveryOperationCompletes :=
  ⟨fun i s => ⟨_, exec_eq i s⟩, fun s => ⟨_, exec_eq _ s.begin⟩, ⟨nofun⟩⟩

theorem op_decodeBusWrite (a b : Byte) : (decodeBusWrite a b).op = .write b := by
  unfold decodeBusWrite
  split_ifs <;> rfl

theorem op_decodeBusRead (a : Byte) : (decodeBusRead a).op = .read := by
  unfold decodeBusRead
  split_ifs <;> rfl

/-- Rows of one operation answer the same state. -/
theorem exec_congr {i j : Instr} (h : i.op = j.op) (s : State) : exec i s = exec j s := by
  rw [exec_eq, exec_eq, h]

/-- Settles O31: every class of BUS_WRITE is the operation WR. -/
theorem writeTakesItsClass : Obligations.WriteTakesItsClass :=
  ⟨fun s b => (exec_congr (j := .wr b) (op_decodeBusWrite s.offset b) s).symm,
    fun s b _ hi => exec_congr (j := .wr b) (isWrite_iff.mp hi) s⟩

/-- Settles O35: every class of BUS_READ is the operation RD. -/
theorem readTakesItsClass : Obligations.ReadTakesItsClass :=
  ⟨fun s => (exec_congr (j := .rd) (op_decodeBusRead s.offset) s).symm,
    fun s _ hi => exec_congr (j := .rd) (isRead_iff.mp hi) s⟩

/-! ### RESET (70_reset_and_hazards.md R175) -/

/-- With no cell listed the year reads as 2000, a leap year by the rule of R95. -/
theorem State.checkLeapYear_of_mem_nil {s : State} (h : s.mem = []) : s.checkLeapYear = { s with leap := true } := by
  have hcent : s.reg 7 = 0x20 := State.reg_of_mem_nil h 7
  have hyear : s.reg 6 = 0x00 := State.reg_of_mem_nil h 6
  have hbcd : (isBcd 0x20 && isBcd 0x00) = true := by decide
  have hleap : isLeap 0x20 0x00 = true := by decide
  simp only [State.checkLeapYear_eq, hcent, hyear, hbcd, hleap, if_true]

/-- Settles O2: every element is written, and the recompute at the end finds a leap year. -/
theorem resetInstallsEveryElement : Obligations.ResetInstallsEveryElement := fun s => by
  rw [exec_reset, State.resetBlock, State.checkLeapYear_of_mem_nil rfl]
  rfl

/-! ### Scheduler (40_scheduler.md) -/

theorem decode_nop (din : Byte) : decode (eventWord 0b000 din) = .nop := by
  have hbit : ∀ j, 8 ≤ j → (eventWord 0b000 din).getLsbD j = false := fun j hj => by
    rw [eventWord, BitVec.getLsbD_append, if_neg (by omega)]
    exact BitVec.getLsbD_zero
  simp only [decode, hbit 10 (by decide), hbit 9 (by decide), hbit 8 (by decide)]

/-- Settles O3: the three bits of `ev` are 0 in such a word, and NOP is no update. -/
theorem nopChangesNothing : Obligations.NopChangesNothing := fun _ din => ⟨decode_nop din, rfl⟩

/-- TICK as one update: the requested bit and the next phase (R65). -/
theorem State.tick_eq (s : State) :
    s.tick = { s with
      phase := if s.phase + 1 = s.conf.ticks then 0 else s.phase + 1
      af := s.af ||| phaseMask s.conf s.tickKey } := by
  rw [State.tick, State.requestFlag_eq]; rfl

theorem phaseMask_eq_ite (c : Config) (k : Nat) :
    phaseMask c k = if k = 2 then 0x01 else if k = 4 then (if c.diagEn then 0x02 else 0x00) else if k = 6 then 0x04
      else if k = 8 then 0x08 else if k = 10 then 0x10 else if k = 12 then 0x20 else if k = 14 then 0x40
      else if k = 16 then 0x08 else 0x00 := by
  unfold phaseMask
  split <;> simp_all

/-- Settles O4, by the one update that a tick is. -/
theorem tickAdvancesAndRequests : Obligations.TickAdvancesAndRequests := by
  intro s p k
  rw [exec_eq, ← phaseMask_eq_ite]
  exact congrArg Host.Outcome.next s.tick_eq

/-- Before the last tick of a cycle `PHASE` counts on. -/
theorem State.tick_of_inner_key {s : State} {k : Nat} (h : s.tickKey = k) (hk : k < 16) :
    s.tick = { s with af := s.af ||| phaseMask s.conf k, phase := s.phase + 1 } := by
  have hphase : s.phase + 1 ≠ s.conf.ticks := fun hlast => by
    rw [State.tickKey, hlast] at h
    obtain hN | hN := ticks_eq s.conf <;> rw [hN] at h <;> omega
  rw [State.tick_eq, if_neg hphase, h]

/-- Settles O5: each phase line is the tick of its key. -/
theorem phaseLineResults : Obligations.PhaseLineResults := by
  intro s k after
  have inner : ∀ {i : Instr} {j : Nat}, i.op = .tick → j < 16 → k = j → exec i s = .next (after (phaseMask s.conf j)) :=
    fun hi hj hk => by rw [exec_eq, hi]; exact congrArg Host.Outcome.next (State.tick_of_inner_key hk hj)
  refine ⟨inner rfl (by decide), inner rfl (by decide), inner rfl (by decide), inner rfl (by decide),
    inner rfl (by decide), inner rfl (by decide), inner rfl (by decide), fun hk => ?_⟩
  rw [exec_eq]
  refine congrArg Host.Outcome.next ((State.tick_of_last_key hk).trans ?_)
  simp [State.setFlag, setBit]

/-- Every line of the phase table is a TICK. -/
theorem op_of_decodePhase {k : Nat} {i : Instr} (h : decodePhase k = .ok i) : i.op = .tick := by
  unfold decodePhase at h
  split at h <;> cases h <;> rfl

/-- A phase number without a line requests nothing. -/
theorem phaseMask_of_decodePhase_error {k : Nat} {e : DecodeError} (h : decodePhase k = .error e) (c : Config) :
    phaseMask c k = 0x00 := by
  unfold decodePhase at h
  unfold phaseMask
  split at h <;> simp_all

/-- Settles O6: a line of the table is the operation TICK, and a key without one has an empty request. -/
theorem tickTakesItsPhaseLine : Obligations.TickTakesItsPhaseLine := by
  refine ⟨fun s k hk => ⟨fun i hi => (exec_congr (j := .tick) (op_of_decodePhase hi) s).symm, fun e he => ?_⟩,
    fun s i hi => exec_congr (j := .tick) (isTick_iff.mp hi) s⟩
  have hmask : phaseMask s.conf s.tickKey = 0x00 := by
    rw [State.tickKey, hk]; exact phaseMask_of_decodePhase_error he s.conf
  rw [exec_eq]
  refine congrArg Host.Outcome.next (s.tick_eq.trans ?_)
  rw [hmask, show s.af ||| 0x00 = s.af from BitVec.or_zero]

/-- Settles O7: setting a bit that is set changes nothing. -/
theorem adcDoneRequestsTheCopy : Obligations.AdcDoneRequestsTheCopy := by
  have hflag : ∀ s : State, s.setFlag 7 = { s with af := s.af ||| 0x80 } := fun s => rfl
  refine fun s => ⟨congrArg Host.Outcome.next (hflag s), ?_⟩
  change Host.Outcome.next ((s.setFlag 7).setFlag 7) = Host.Outcome.next (s.setFlag 7)
  rw [hflag, hflag, BitVec.or_assoc, BitVec.or_self]

end Sys2Proof.Machine

/-! ### Event words (30_encoding.md R46, R47) and the keys of the table (R56 to R60, R64) -/

namespace Sys2Proof.Machine

open Sys2Proof.Laws

/-! #### The fields of an event word -/

section EventWords

variable (ev : BitVec 3) (din : Byte)

theorem extract_ev_eventWord : (eventWord ev din).extractLsb' 8 3 = ev := BitVec.extractLsb'_append_eq_left

theorem extract_din_eventWord : (eventWord ev din).extractLsb' 0 8 = din := BitVec.extractLsb'_append_eq_right

/-- Bits 10 and 9 of the word are bits 2 and 1 of `ev`: 10 there is SETOFF or WR. -/
theorem extract_kind_eventWord : (eventWord ev din).extractLsb' 9 2 = ev.extractLsb' 1 2 :=
  BitVec.extractLsb'_append_eq_of_le (by decide)

theorem getLsbD_eventWord_high (j : Nat) : (eventWord ev din).getLsbD (8 + j) = ev.getLsbD j := by
  rw [eventWord, BitVec.getLsbD_append, if_neg (by omega), Nat.add_sub_cancel_left]

theorem eventWord_and_mask : eventWord ev din &&& 0x700#11 = eventWord ev 0x00 := by
  have hmask : (0x700#11 : EventWord) = (0b111#3 ++ 0x00#8 : BitVec (3 + 8)) := by decide
  have hev : ev &&& 0b111#3 = ev := BitVec.and_allOnes
  have hdin : din &&& 0x00#8 = 0x00#8 := BitVec.and_zero
  rw [hmask, eventWord, BitVec.and_append, hev, hdin]; rfl

theorem eq_eventWord (w : EventWord) : w = eventWord (w.extractLsb' 8 3) (w.extractLsb' 0 8) := by
  have happend : w.extractLsb' 8 3 ++ w.extractLsb' 0 8 = w.extractLsb' 0 11 :=
    BitVec.extractLsb'_append_extractLsb'_eq_extractLsb' rfl
  exact (happend.trans BitVec.extractLsb'_eq_self).symm

theorem eventWord_inj {ev ev' : BitVec 3} {din din' : Byte} :
    eventWord ev din = eventWord ev' din' ↔ ev = ev' ∧ din = din' := by
  refine ⟨fun h => ⟨?_, ?_⟩, fun ⟨hev, hdin⟩ => by rw [hev, hdin]⟩
  · rw [← extract_ev_eventWord ev din, h, extract_ev_eventWord]
  · rw [← extract_din_eventWord ev din, h, extract_din_eventWord]

/-- The word of a decoded event: the operand stays where the event has one, and is 0x00 where it is ignored. -/
theorem encode_decode_eventWord :
    encode (decode (eventWord ev din)) = eventWord ev (if ev.extractLsb' 1 2 = 0b10#2 then din else 0x00) := by
  have h10 := getLsbD_eventWord_high ev din 2
  have h9 := getLsbD_eventWord_high ev din 1
  have h8 := getLsbD_eventWord_high ev din 0
  have hdin := EncodeKind.din_eventWord ev din
  have hcases : ∀ e : BitVec 3, e ∈ [0, 1, 2, 3, 4, 5, 6, 7] := by decide
  simp only [Nat.reduceAdd] at h10 h9 h8
  simp only [decode, h10, h9, h8, hdin]
  have := hcases ev
  simp only [List.mem_cons, List.not_mem_nil, or_false] at this
  rcases this with h | h | h | h | h | h | h | h <;> subst h <;> rfl

end EventWords

theorem decode_encode_of_wf {i : Instr} (h : i.wf = true) : decode (encode i) = i := by
  cases i with
  | nop => exact EncodeKind.nop.2.mp h
  | tick => exact EncodeKind.tick.2.mp h
  | adc => exact EncodeKind.adc.2.mp h
  | fg => exact EncodeKind.fg.2.mp h
  | setoff b => exact (EncodeKind.setoff b).2.mp h
  | wr b => exact (EncodeKind.wr b).2.mp h
  | rd => exact EncodeKind.rd.2.mp h
  | reset => exact EncodeKind.reset.2.mp h
  | _ => cases h

theorem encode_decode (w : EventWord) :
    encode (decode w) = if w.extractLsb' 9 2 = 0b10#2 then w else w &&& 0x700#11 := by
  rw [eq_eventWord w, encode_decode_eventWord, extract_kind_eventWord, eventWord_and_mask]
  split_ifs <;> rfl

/-- Two words are one event exactly if their canonical words are equal. -/
theorem decode_eq_iff_encode_eq {w w' : EventWord} : decode w = decode w' ↔ encode (decode w) = encode (decode w') := by
  refine ⟨congrArg encode, fun h => ?_⟩
  rw [← decode_encode_of_wf (decode_wf w), h, decode_encode_of_wf (decode_wf w')]

theorem decode_eventWord_eq_iff {ev ev' : BitVec 3} {din din' : Byte} :
    decode (eventWord ev din) = decode (eventWord ev' din') ↔ ev = ev' ∧ (ev.extractLsb' 1 2 = 0b10#2 → din = din') := by
  rw [decode_eq_iff_encode_eq, encode_decode_eventWord, encode_decode_eventWord, eventWord_inj]
  refine and_congr_right fun hev => ?_
  subst hev
  split_ifs with h <;> simp [h]

/-- Settles O56, from the canonical word of each event and the fields of a word. -/
theorem eventWordsRoundTrip : Obligations.EventWordsRoundTrip := by
  refine ⟨fun _ => decode_encode_of_wf, fun w => ⟨decode_wf w, encode_decode w⟩, fun w w' => ?_⟩
  have hkind : w.extractLsb' 9 2 = (w.extractLsb' 8 3).extractLsb' 1 2 := by
    conv_lhs => rw [eq_eventWord w, extract_kind_eventWord]
  rw [hkind, ← decode_eventWord_eq_iff, ← eq_eventWord, ← eq_eventWord]

/-- Settles O55, each word by the decoder's own table. -/
theorem writtenWordsDecode : Obligations.WrittenWordsDecode :=
  ⟨by decide, by decide, by decide, by decide, by decide, by decide, by decide, by decide, rfl, rfl, rfl, rfl⟩

/-! #### Keys of the table -/

theorem decodeRow_encodeRow (i : Instr) : decodeRow (encodeRow i) = .ok i := by
  cases i with
  | nop | tick | adc | fg | setoff b | wr b | rd | reset => exact congrArg Except.ok (decode_encode_of_wf rfl)
  | _ => rfl

/-- The class of a write, by the number of the offset. -/
theorem decodeBusWrite_eq (a b : Byte) :
    decodeBusWrite a b =
      if a.toNat ≤ 5 then .wrTime b else if a.toNat ≤ 7 then .wrYear b else if a.toNat ≤ 25 then .wrAlarm b
      else if a.toNat ≤ 27 then .wrTemp b else if a.toNat = 28 then .wrCfg b else if a.toNat = 29 then .wrAie b
      else if a.toNat = 30 then .wrAif b else .wrOor b := by
  simp only [decodeBusWrite, BitVec.le_def, ← BitVec.toNat_inj]; rfl

/-- The class of a read, by the number of the offset. -/
theorem decodeBusRead_eq (a : Byte) :
    decodeBusRead a =
      if a.toNat ≤ 25 then .rdPlain else if a.toNat = 26 then .rdTemph else if a.toNat = 27 then .rdTempl
      else if a.toNat ≤ 30 then .rdPlain else .rdOor := by
  simp only [decodeBusRead, BitVec.le_def, ← BitVec.toNat_inj]; rfl

theorem decodePhase_of_odd {k : Nat} (h : k % 2 = 1) : decodePhase k = .error .noPhaseLine := by
  unfold decodePhase
  split
  case h_9 => rfl
  all_goals omega

theorem decodeAction_of_gt {k : Nat} (h : 8 < k) : decodeAction k = .error .noAction := by
  unfold decodeAction
  split
  case h_10 => rfl
  all_goals omega

/-- Settles O57: the ranges of the two bus tables do not overlap, and the other two tables have no further line. -/
theorem rowKeysRoundTrip : Obligations.RowKeysRoundTrip := by
  refine ⟨decodeRow_encodeRow, fun a b c => ?_, fun a => ?_, fun k hk => decodePhase_of_odd ?_,
    fun i hi => decodeAction_of_gt hi⟩
  · simp only [decodeRow, decodeBusWrite_eq, ← BitVec.toNat_inj (x := a)]
    split_ifs <;> simp [eq_comm] <;> omega
  · simp only [decodeRow, decodeBusRead_eq, ← BitVec.toNat_inj (x := a)]
    split_ifs <;> simp <;> omega
  · simpa [BitVec.getLsbD, Nat.testBit_zero] using hk

end Sys2Proof.Machine

/-! ### Steps and runs (20_memory.md R36, 30_encoding.md R45) -/

namespace Sys2Proof.Machine

theorem State.begin_of_cons {s : State} {e : Input} {rest : List Input} (h : s.inputs = e :: rest) :
    s.begin = { s with
      inputs := rest, adcRaw := e.adcRaw, dout := none, status := none, adcStart := false, diagReq := false } := by
  simp only [State.begin, State.nextInput, h, List.tail_cons, List.headD_cons]

theorem State.begin_of_nil {s : State} (h : s.inputs = []) :
    s.begin = { s with adcRaw := none, dout := none, status := none, adcStart := false, diagReq := false } := by
  simp only [State.begin, State.nextInput, h, List.tail_nil, List.headD_nil, idleInput]

theorem State.nextInput_of_cons {s : State} {e : Input} {rest : List Input} (h : s.inputs = e :: rest) :
    s.nextInput = e := by
  rw [State.nextInput, h, List.headD_cons]

/-- Settles O51: the ports hold the first event, or the idle code, which is a NOP. -/
theorem stepRunsTheDecodedEvent : Obligations.StepRunsTheDecodedEvent := by
  refine fun s => ⟨fun e rest h => ?_, fun h => ?_⟩
  · rw [step_eq, State.begin_of_cons h, State.nextInput_of_cons h, Input.word]
  · have hidle : s.nextInput.word = eventWord 0b000 0x00 := by rw [State.nextInput, h]; rfl
    rw [step_eq, hidle, decode_nop, State.begin_of_nil h]; rfl

theorem word_eventInput (i : Instr) : (eventInput i).word = encode i := (eq_eventWord (encode i)).symm

/-- A step on the canonical word of an event is that event. -/
theorem step_of_event {s : State} {i : Instr} {rest : List Input} (hi : i.wf = true)
    (h : s.inputs = eventInput i :: rest) : step s = .next (i.op.run s.begin) := by
  rw [step_eq, State.nextInput_of_cons h, word_eventInput, decode_encode_of_wf hi, exec_eq]

theorem run_succ {s t : State} (h : step s = .next t) (k : Nat) : core.run (k + 1) s = core.run k t := by
  have h' : core.step s = .next t := h
  simp only [Host.Core.run, h']

end Sys2Proof.Machine

/-! ### One cycle of ticks (40_scheduler.md R65, R67) -/

namespace Sys2Proof.Machine

/-- `PHASE` after a tick from phase `p` (R65). -/
def nextPhase (c : Config) (p : Nat) : Nat := if p + 1 = c.ticks then 0 else p + 1

/-- The flags that `k` ticks from phase `p` request. -/
def ticksMask (c : Config) : Nat → Nat → Byte
  | _, 0 => 0x00
  | p, k + 1 => phaseMask c ((p + 1) * (16 / c.ticks)) ||| ticksMask c (nextPhase c p) k

/-- A run of ticks: only the events are used up, `PHASE` counts and the requests gather in `AF`. -/
theorem run_ticks (k : Nat) (s : State) (rest : List Input)
    (h : s.inputs = List.replicate k (eventInput .tick) ++ rest) :
    ∃ t, core.run k s = .next t ∧ t.inputs = rest
      ∧ t.block = { s with phase := (nextPhase s.conf)^[k] s.phase, af := s.af ||| ticksMask s.conf s.phase k }.block := by
  induction k generalizing s with
  | zero =>
    refine ⟨s, rfl, h, ?_⟩
    rw [Function.iterate_zero_apply, ticksMask, show s.af ||| 0x00 = s.af from BitVec.or_zero]
  | succ k ih =>
    rw [List.replicate_succ, List.cons_append] at h
    have hinputs : s.begin.tick.inputs = List.replicate k (eventInput .tick) ++ rest := by
      rw [State.tick_eq, State.begin_of_cons h]
    obtain ⟨t, hrun, hrest, hblock⟩ := ih s.begin.tick hinputs
    refine ⟨t, (run_succ (step_of_event rfl h) k).trans hrun, hrest, hblock.trans ?_⟩
    rw [State.tick_eq, Function.iterate_succ_apply, ticksMask, ← BitVec.or_assoc]
    rfl

theorem iterate_nextPhase_cycle (c : Config) : (nextPhase c)^[c.ticks] 0 = 0 := by
  obtain hN | hN := ticks_eq c <;> simp [nextPhase, hN]

/-- One cycle requests every flag of the phase table, that of ACT_DIAG where the sink is there (R56, R65). -/
theorem ticksMask_cycle (c : Config) : ticksMask c 0 c.ticks = if c.diagEn then 0x7F else 0x7D := by
  obtain hN | hN := ticks_eq c <;> cases hdiag : c.diagEn <;> simp [ticksMask, nextPhase, phaseMask, hN, hdiag]

/-- Settles O8: the run of ticks, over one cycle. -/
theorem cycleOfTicksRequestsEveryPhaseFlag : Obligations.CycleOfTicksRequestsEveryPhaseFlag := by
  intro s rest hphase hinputs
  obtain ⟨t, hrun, hrest, hblock⟩ := run_ticks s.conf.ticks s rest hinputs
  rw [hphase, iterate_nextPhase_cycle, ticksMask_cycle] at hblock
  have haf : t.af = s.af ||| (if s.conf.diagEn then 0x7F else 0x7D) := congrArg State.af hblock
  exact ⟨t, hrun, hrest, congrArg State.phase hblock, haf, by rw [hblock, haf]⟩

/-! ### The foreground dispatcher (40_scheduler.md R69 to R72) -/

theorem exec_fg (s : State) : exec .fg s = .next s.fgStep := rfl

theorem State.choose_of_pending_nil {s : State} (h : s.pending = []) : s.choose = none := by
  unfold State.choose
  split <;> rw [h] <;> rfl

theorem State.pending_eq_nil {s : State} (haf : s.af = 0) (hconv : s.conv = false) : s.pending = [] := by
  refine List.filter_eq_nil_iff.mpr fun a _ => ?_
  cases a <;> simp [State.isPending, haf, hconv]

/-- Settles O9: nothing is pending, so nothing is chosen. -/
theorem foregroundIdleChangesNothing : Obligations.ForegroundIdleChangesNothing := by
  intro s haf hconv
  rw [exec_fg, State.fgStep, State.choose_of_pending_nil (State.pending_eq_nil haf hconv)]

theorem Action.index_injective {a b : Action} (h : a.index = b.index) : a = b := by
  revert h; cases a <;> cases b <;> decide

theorem Action.all_sorted : Action.all.Pairwise (fun a b => a.index ≤ b.index) := by decide

/-- With `PRIORITY` the pending action of lowest index is chosen (R71). -/
theorem State.choose_of_lowest {s : State} {a : Action} (hord : s.conf.fgOrder = .priority) (ha : s.isPending a = true)
    (hmin : ∀ b, s.isPending b = true → a.index ≤ b.index) : s.choose = some a := by
  have hchoose : s.choose = s.pending.head? := by unfold State.choose; rw [hord]
  have hmem : a ∈ s.pending := State.mem_pending.mpr ha
  have hsorted : s.pending.Pairwise (fun a b => a.index ≤ b.index) := Action.all_sorted.filter _
  rw [hchoose]
  cases hp : s.pending with
  | nil => simp [hp] at hmem
  | cons b rest =>
    have hb : b.index ≤ a.index := by
      rw [hp] at hsorted hmem
      obtain rfl | hrest := List.mem_cons.mp hmem
      · exact le_rfl
      · exact List.rel_of_pairwise_cons hsorted hrest
    have hab : a.index ≤ b.index := hmin b (State.mem_pending.mp (by rw [hp]; exact List.mem_cons_self))
    rw [List.head?_cons, Action.index_injective (le_antisymm hab hb)]

/-- With `ANY` something pending is chosen (R71). -/
theorem State.exists_choose_of_any {s : State} (hord : s.conf.fgOrder = .any) {a : Action} (ha : s.isPending a = true) :
    ∃ b, s.choose = some b := by
  have hlen : 0 < s.pending.length := List.length_pos_of_mem (State.mem_pending.mpr ha)
  unfold State.choose
  rw [hord]
  exact ⟨_, List.getElem?_eq_getElem (Nat.mod_lt _ hlen)⟩

/-- The flag of an action is its bit of `AF`; CONV_START, index 8, has none there. -/
theorem State.clearFlag_eq_mask (s : State) (a : Action) :
    s.clearFlag a = { s with af := s.af &&& ~~~(1#8 <<< a.index) } := by
  cases a with
  | convStart =>
    have hmask : s.af &&& ~~~(1#8 <<< Action.convStart.index) = s.af := BitVec.and_allOnes
    rw [hmask]; rfl
  | _ => rfl

/-- Settles O10: that action is chosen, and no free choice is used. -/
theorem foregroundTakesLowestIndex : Obligations.ForegroundTakesLowestIndex := by
  intro s a hord ha hmin
  have hspend : s.spendChoice = s := by unfold State.spendChoice; rw [hord]
  refine ⟨_, exec_fg s, ?_⟩
  rw [exec_actionInstr, State.fgStep_of_choose (State.choose_of_lowest hord ha hmin), hspend, State.clearFlag_eq_mask]

/-- Settles O11: something is chosen, what is chosen is pending, and the free choice is counted. -/
theorem foregroundAnyOrderTakesAPendingAction : Obligations.ForegroundAnyOrderTakesAPendingAction := by
  intro s hord ⟨c, hc⟩
  obtain ⟨a, hchoose⟩ := State.exists_choose_of_any hord hc
  have hspend : s.spendChoice = s.spend 1 := by unfold State.spendChoice; rw [hord]
  refine ⟨a, _, State.mem_pending.mp (State.pending_of_choose hchoose), exec_fg s, ?_⟩
  rw [exec_actionInstr, State.fgStep_of_choose hchoose, hspend, State.clearFlag_eq_mask]
  rfl

end Sys2Proof.Machine

/-! ### The calendar engine (41_calendar.md): arithmetic -/

namespace Sys2Proof.Machine

/-! #### Packed BCD -/

theorem dec2bcd_bcd2dec : ∀ b : Byte, isBcd b = true → dec2bcd (bcd2dec b) = b := by decide

/-- A valid byte is known by its value. -/
theorem bcd2dec_eq_iff {b : Byte} (hb : isBcd b = true) {d : Nat} (hd : d < 100) : bcd2dec b = d ↔ b = dec2bcd d := by
  constructor
  · rintro rfl
    exact (dec2bcd_bcd2dec b hb).symm
  · rintro rfl
    exact bcd2dec_dec2bcd d hd

theorem bcdIn_dec2bcd {d lo hi : Nat} (hlo : lo ≤ d) (hhi : d < hi) (h100 : d < 100) : bcdIn (dec2bcd d) lo hi = true := by
  rw [bcdIn_iff, bcd2dec_dec2bcd d h100]
  exact ⟨isBcd_dec2bcd d h100, hlo, hhi⟩

theorem isBcd_of_bcdIn {b : Byte} {lo hi : Nat} (h : bcdIn b lo hi = true) : isBcd b = true := (bcdIn_iff.mp h).1

/-! #### Month lengths and the date step (R87, R90) -/

theorem one_le_mlen (m : Nat) (leap : Bool) : 28 ≤ mlen m leap ∧ mlen m leap ≤ 31 := by
  unfold mlen
  split
  · cases leap <;> decide
  all_goals decide

/-- The date rolls over exactly from the last day of the month. -/
theorem dateRolls_succ : ∀ m < 13, ∀ leap : Bool, ∀ d < 32, 1 ≤ m → d ≤ mlen m leap →
    dateRolls (d + 1) m leap = decide (d = mlen m leap) := by decide

theorem dateStepOk_iff {date month : Byte} {leap : Bool} :
    dateStepOk date month leap = true ↔
      isBcd date = true ∧ bcdIn month 1 13 = true ∧ 1 ≤ bcd2dec date ∧ bcd2dec date ≤ mlen (bcd2dec month) leap := by
  simp [dateStepOk, and_assoc]

theorem dateStep_eq {date month : Byte} {leap : Bool} (h : dateStepOk date month leap = true) :
    dateStep date month leap =
      if bcd2dec date = mlen (bcd2dec month) leap then (0x01, true) else (dec2bcd (bcd2dec date + 1), false) := by
  obtain ⟨-, hmonth, -, hle⟩ := dateStepOk_iff.mp h
  obtain ⟨-, hlo, hhi⟩ := bcdIn_iff.mp hmonth
  have hdate : bcd2dec date < 32 := by have := (one_le_mlen (bcd2dec month) leap).2; omega
  simp only [dateStep, dateRolls_succ _ hhi leap _ hdate hlo hle, decide_eq_true_eq]

theorem mlen_eq_monthDays (m y : Nat) : mlen m (Civil.leapYear y) = Civil.monthDays m y := by
  unfold mlen Civil.monthDays
  split <;> simp_all

/-! #### The leap rule (R95, R96) -/

theorem isLeap_eq_leapYear (cent year : Byte) : isLeap cent year = Civil.leapYear (100 * bcd2dec cent + bcd2dec year) := by
  simp only [isLeap, Civil.leapYear, Nat.dvd_iff_mod_eq_zero, ne_eq]

/-- `div4` reads divisibility by 4 off the bits of a valid byte. -/
theorem div4_eq : ∀ b : Byte, isBcd b = true → div4 b = decide (bcd2dec b % 4 = 0) := by decide

/-- Settles O49: of `100 * cent + year`, the year decides unless it is 0, and then the century does. -/
theorem leapRuleWithoutDivision : Obligations.LeapRuleWithoutDivision := by
  refine fun cent year hcent hyear => ⟨?_, isLeap_eq_leapYear cent year⟩
  have hlt := bcd2dec_lt_of_isBcd hyear
  have hzero : year = 0x00 ↔ bcd2dec year = 0 := (bcd2dec_eq_iff hyear (by decide : 0 < 100)).symm
  rw [div4_eq cent hcent, div4_eq year hyear, if_congr hzero rfl rfl, isLeap, Bool.eq_iff_iff]
  split_ifs with h <;> simp only [Bool.and_eq_true, Bool.or_eq_true, decide_eq_true_eq] <;> omega

/-! #### The bytewise step (R81) -/

/-- The add with the nibble carry fix-up, on a valid byte, is the packed byte of the successor; 99 gives the sentinel of 100. -/
theorem bytewiseSum_eq : ∀ b : Byte, isBcd b = true →
    (if ones (b + 1) = 0xA then (((b + 1) >>> 4) + 1) <<< 4 else b + 1) = dec2bcdExt (bcd2dec b + 1) := by decide

theorem dec2bcdExt_eq_dec2bcd : ∀ d < 100, dec2bcdExt d = dec2bcd d := by decide

/-- Packed bytes up to the sentinel of 100 are distinct. -/
theorem dec2bcdExt_inj {d e : Nat} (hd : d ≤ 100) (he : e ≤ 100) : dec2bcdExt d = dec2bcdExt e ↔ d = e := by
  simp only [dec2bcdExt, ← BitVec.toNat_inj, BitVec.toNat_ofNat]
  omega

/-- The two forms agree for every limit up to 100 and every first value (R80, R81). -/
theorem bcdStepBytewise_eq {b : Byte} {limit first : Nat} (hb : isBcd b = true) (hv : bcd2dec b < limit) (hl : limit ≤ 100) :
    bcdStepBytewise b limit first = bcdStep b limit first := by
  simp only [bcdStepBytewise, bytewiseSum_eq b hb, dec2bcdExt_inj (by omega : bcd2dec b + 1 ≤ 100) hl]
  split_ifs with h
  · rw [bcdStep_of_eq h]
  · rw [bcdStep_of_ne h, dec2bcdExt_eq_dec2bcd _ (by omega)]

/-- Settles O48, for the limits that a stage uses. -/
theorem bytewiseStepAgrees : Obligations.BytewiseStepAgrees := by
  intro limit first hmem b hb hv
  have hlimits : ∀ x ∈ [(60, 0), (24, 0), (13, 1), (100, 0), (29, 1), (30, 1), (31, 1), (32, 1)], x.1 ≤ 100 := by decide
  exact bcdStepBytewise_eq hb hv (hlimits (limit, first) hmem)

end Sys2Proof.Machine

/-! ### The calendar engine: the stages of ACT_TIME_INC by number (41_calendar.md R82 to R94) -/

namespace Sys2Proof.Machine

/-- The operation from the stage of field `j` on; after the century's there is only its end. -/
def State.stage (s : State) (j : Nat) : State :=
  match j with
  | 0 => s.timeInc
  | 1 => s.minuteStage
  | 2 => s.hourStage
  | 3 => s.dayStage
  | 4 => s.dateStage
  | 5 => s.monthStage
  | 6 => s.yearStage
  | 7 => s.centuryStage
  | _ => s.checkLeapYear.checkAlarms

/-- The field of stage `j` is in its domain (the `requires` clauses of R83 to R93). -/
def State.stageOk (s : State) (j : Nat) : Bool :=
  match j with
  | 0 => bcdIn (s.reg 0) 0 60
  | 1 => bcdIn (s.reg 1) 0 60
  | 2 => bcdIn (s.reg 2) 0 24
  | 3 => decide (1 ≤ (s.reg 3).toNat ∧ (s.reg 3).toNat ≤ 7)
  | 4 => dateStepOk (s.reg 4) (s.reg 5) s.leap
  | 5 => bcdIn (s.reg 5) 1 13
  | 6 => isBcd (s.reg 6)
  | _ => isBcd (s.reg 7)

/-- The new value of field `j` and whether the next stage runs; the day of week always hands the hour's carry on (R86). -/
def State.stageStep (s : State) (j : Nat) : Byte × Bool :=
  match j with
  | 0 => bcdStep (s.reg 0) 60 0
  | 1 => bcdStep (s.reg 1) 60 0
  | 2 => bcdStep (s.reg 2) 24 0
  | 3 => (if s.reg 3 = 7 then 1 else s.reg 3 + 1, true)
  | 4 => dateStep (s.reg 4) (s.reg 5) s.leap
  | 5 => bcdStep (s.reg 5) 13 1
  | 6 => bcdStep (s.reg 6) 100 0
  | _ => bcdStep (s.reg 7) 100 0

/-- How the operation ends with stage `j`: the comparator from the minute on, the leap recompute from the year on (R94, R99). -/
def State.stageEnd (s : State) (j : Nat) : State :=
  if j = 0 then s else if j ≤ 5 then s.checkAlarms else s.checkLeapYear.checkAlarms

/-- The one shape of all eight stages. -/
theorem State.stage_eq (s : State) {j : Nat} (hj : j ≤ 7) :
    s.stage j =
      if s.stageOk j then
        if (s.stageStep j).2 then (s.setReg j (s.stageStep j).1).stage (j + 1) else (s.setReg j (s.stageStep j).1).stageEnd j
      else s.unspecifiedFrom j := by
  match j with
  | 0 | 1 | 2 | 4 | 5 | 6 => rfl
  | 3 => simp only [State.stage, State.dayStage, State.stageOk, State.stageStep, decide_eq_true_eq, if_true]
  | 7 =>
    have hend : ∀ t : State, t.stageEnd 7 = t.checkLeapYear.checkAlarms := fun _ => rfl
    simp only [State.stage, State.centuryStage, State.stageOk, State.stageStep, hend, ite_self]

section Cases

variable {s : State} {j : Nat}

theorem State.stage_of_carry (hj : j ≤ 7) (hok : s.stageOk j = true) (hcarry : (s.stageStep j).2 = true) :
    s.stage j = (s.setReg j (s.stageStep j).1).stage (j + 1) := by
  rw [State.stage_eq s hj, if_pos hok, if_pos hcarry]

theorem State.stage_of_no_carry (hj : j ≤ 7) (hok : s.stageOk j = true) (hcarry : (s.stageStep j).2 = false) :
    s.stage j = (s.setReg j (s.stageStep j).1).stageEnd j := by
  rw [State.stage_eq s hj, if_pos hok, if_neg (by simp [hcarry])]

theorem State.stage_of_not_ok (hj : j ≤ 7) (hok : s.stageOk j = false) : s.stage j = s.unspecifiedFrom j := by
  rw [State.stage_eq s hj, if_neg (by simp [hok])]

end Cases

/-- What holds of every update that a stage from `lo` on makes holds of the whole operation from there on. -/
theorem State.stage_rel {R : State → State → Prop} {lo : Nat} (hrefl : ∀ s, R s s)
    (htrans : ∀ {s t u}, R s t → R t u → R s u) (hset : ∀ s i v, lo ≤ i → i ≤ 7 → R s (s.setReg i v))
    (hleap : ∀ s, R s s.checkLeapYear) (halarms : ∀ s, R s s.checkAlarms)
    (hunspecified : ∀ s i, lo ≤ i → i ≤ 7 → R s (s.unspecifiedFrom i)) (s : State) {j : Nat} (hlo : lo ≤ j) (hj : j ≤ 8) :
    R s (s.stage j) := by
  have hend : ∀ (t : State) (i : Nat), R t (t.stageEnd i) := fun t i => by
    unfold State.stageEnd
    split_ifs
    · exact hrefl t
    · exact halarms t
    · exact htrans (hleap t) (halarms _)
  induction hk : 8 - j generalizing s j with
  | zero =>
    obtain rfl : j = 8 := by omega
    exact hend s 8
  | succ k ih =>
    have hj7 : j ≤ 7 := by omega
    rw [State.stage_eq s hj7]
    split_ifs
    · exact htrans (hset s j _ hlo hj7) (ih _ (by omega) (by omega) (by omega))
    · exact htrans (hset s j _ hlo hj7) (hend _ j)
    · exact hunspecified s j hlo hj7

/-! #### What a stage leaves unchanged -/

theorem State.freeLastFields_reg (s : State) (k : Nat) {a : Nat} (h : a + k < 8 ∨ 8 ≤ a) :
    (s.freeLastFields k).reg a = s.reg a := by
  induction k generalizing s with
  | zero => rfl
  | succ k ih =>
    rw [State.freeLastFields, ih _ (by omega), State.reg_setReg, if_neg (by omega)]

/-- The rest of an operation outside its domain: free bytes from field `j` on, and in AIF flags only added. -/
theorem State.unspecifiedFrom_reg_of_lt (s : State) {j a : Nat} (h : a < j) (hj : j ≤ 7) :
    (s.unspecifiedFrom j).reg a = s.reg a := by
  change ((s.freeLastFields (8 - j)).setReg 30 _).reg a = s.reg a
  rw [State.reg_setReg, if_neg (by omega), State.freeLastFields_reg s _ (by omega)]

theorem State.unspecifiedFrom_aif (s : State) (j : Nat) :
    (s.unspecifiedFrom j).reg 30 = s.reg 30 ||| (Config.freeByte (s.freeCount + 8) &&& 0x3F) := by
  change ((s.freeLastFields (8 - j)).setReg 30 _).reg 30 = _
  rw [State.reg_setReg, if_pos rfl, State.freeLastFields_reg s _ (by omega)]

theorem State.unspecifiedFrom_marked (s : State) (j : Nat) : (s.unspecifiedFrom j).marked = true := rfl

@[simp] theorem State.checkLeapYear_marked (s : State) : s.checkLeapYear.marked = s.marked := by rw [State.checkLeapYear_eq]

@[simp] theorem State.checkAlarms_marked (s : State) : s.checkAlarms.marked = s.marked := rfl

/-- A stage keeps the fields of the stages before it. -/
theorem State.stage_reg_of_lt (s : State) {j a : Nat} (ha : a < j) (hj : j ≤ 8) : (s.stage j).reg a = s.reg a :=
  State.stage_rel (R := fun s t => a < 8 → t.reg a = s.reg a) (lo := a + 1) (fun _ _ => rfl)
    (fun h h' ha => (h' ha).trans (h ha))
    (fun s i v hi _ _ => by rw [State.reg_setReg, if_neg (by omega)])
    (fun s _ => s.checkLeapYear_reg a)
    (fun s ha => by rw [State.checkAlarms_reg, if_neg (by omega)])
    (fun s i hi hi7 _ => s.unspecifiedFrom_reg_of_lt (by omega) hi7) s ha hj (by omega)

theorem State.stageEnd_reg (s : State) (j : Nat) {a : Nat} (ha : a ≠ 30) : (s.stageEnd j).reg a = s.reg a := by
  unfold State.stageEnd
  split_ifs <;> simp [State.checkAlarms_reg, ha]

/-- In its domain a stage leaves its field at the value of its step, whatever the stages above do. -/
theorem State.stage_reg_self {s : State} {j : Nat} (hj : j ≤ 7) (hok : s.stageOk j = true) :
    (s.stage j).reg j = (s.stageStep j).1 := by
  cases hcarry : (s.stageStep j).2 with
  | true =>
    rw [State.stage_of_carry hj hok hcarry, State.stage_reg_of_lt _ (Nat.lt_succ_self j) (by omega), State.reg_setReg,
      if_pos rfl]
  | false =>
    rw [State.stage_of_no_carry hj hok hcarry, State.stageEnd_reg _ _ (by omega), State.reg_setReg, if_pos rfl]

/-- Without a carry a stage changes no other time register. -/
theorem State.stage_reg_of_no_carry {s : State} {j a : Nat} (hj : j ≤ 7) (hok : s.stageOk j = true)
    (hcarry : (s.stageStep j).2 = false) (ha : a ≠ j) (ha30 : a ≠ 30) : (s.stage j).reg a = s.reg a := by
  rw [State.stage_of_no_carry hj hok hcarry, State.stageEnd_reg _ _ ha30, State.reg_setReg, if_neg ha]

end Sys2Proof.Machine

/-! ### The carry chain (41_calendar.md R82 to R93) -/

namespace Sys2Proof.Machine

theorem exec_actTimeInc (s : State) : exec .actTimeInc s = .next (s.stage 0) := rfl

/-! #### The step of a field -/

theorem bcdStep_carry (b : Byte) (limit first : Nat) : (bcdStep b limit first).2 = decide (bcd2dec b + 1 = limit) := by
  unfold bcdStep
  split <;> simp [*]

theorem bcdStep_value (b : Byte) (limit first : Nat) :
    (bcdStep b limit first).1 = if bcd2dec b + 1 = limit then dec2bcd first else dec2bcd (bcd2dec b + 1) := by
  unfold bcdStep
  split <;> rfl

/-- A field that starts again from 0 counts modulo its limit. -/
theorem bcdStep_value_mod {b : Byte} {limit : Nat} (h : bcd2dec b < limit) :
    (bcdStep b limit 0).1 = dec2bcd ((bcd2dec b + 1) % limit) := by
  rw [bcdStep_value]
  split_ifs with hlast
  · rw [hlast, Nat.mod_self]
  · rw [Nat.mod_eq_of_lt (by omega)]

/-! #### A stage whose field stands at its last value hands on -/

section LastValues

variable {s : State}

theorem State.stage_second_of_last (h : s.reg 0 = 0x59) : s.stage 0 = (s.setReg 0 0x00).stage 1 := by
  have hstep : s.stageStep 0 = (0x00, true) := by rw [State.stageStep, h]; decide
  rw [State.stage_of_carry (by decide) (by rw [State.stageOk, h]; decide) (by rw [hstep]), hstep]

theorem State.stage_minute_of_last (h : s.reg 1 = 0x59) : s.stage 1 = (s.setReg 1 0x00).stage 2 := by
  have hstep : s.stageStep 1 = (0x00, true) := by rw [State.stageStep, h]; decide
  rw [State.stage_of_carry (by decide) (by rw [State.stageOk, h]; decide) (by rw [hstep]), hstep]

theorem State.stage_hour_of_last (h : s.reg 2 = 0x23) : s.stage 2 = (s.setReg 2 0x00).stage 3 := by
  have hstep : s.stageStep 2 = (0x00, true) := by rw [State.stageStep, h]; decide
  rw [State.stage_of_carry (by decide) (by rw [State.stageOk, h]; decide) (by rw [hstep]), hstep]

theorem State.stage_day (hlo : 1 ≤ (s.reg 3).toNat) (hhi : (s.reg 3).toNat ≤ 7) :
    s.stage 3 = (s.setReg 3 (if s.reg 3 = 7 then 1 else s.reg 3 + 1)).stage 4 :=
  State.stage_of_carry (by decide) (decide_eq_true ⟨hlo, hhi⟩) rfl

theorem State.stage_date_of_last (hok : dateStepOk (s.reg 4) (s.reg 5) s.leap = true)
    (h : bcd2dec (s.reg 4) = mlen (bcd2dec (s.reg 5)) s.leap) : s.stage 4 = (s.setReg 4 0x01).stage 5 := by
  have hstep : s.stageStep 4 = (0x01, true) := (dateStep_eq hok).trans (if_pos h)
  rw [State.stage_of_carry (j := 4) (by decide) hok (by rw [hstep]), hstep]

theorem State.stage_month_of_last (h : s.reg 5 = 0x12) : s.stage 5 = (s.setReg 5 0x01).stage 6 := by
  have hstep : s.stageStep 5 = (0x01, true) := by rw [State.stageStep, h]; decide
  rw [State.stage_of_carry (by decide) (by rw [State.stageOk, h]; decide) (by rw [hstep]), hstep]

theorem State.stage_year_of_last (h : s.reg 6 = 0x99) : s.stage 6 = (s.setReg 6 0x00).stage 7 := by
  have hstep : s.stageStep 6 = (0x00, true) := by rw [State.stageStep, h]; decide
  rw [State.stage_of_carry (by decide) (by rw [State.stageOk, h]; decide) (by rw [hstep]), hstep]

end LastValues

/-! #### Below its last value a stage ends the operation -/

section InnerValues

variable {s : State}

theorem State.stageStep_second_carry (s : State) : (s.stageStep 0).2 = decide (bcd2dec (s.reg 0) = 59) := by
  simp [State.stageStep, bcdStep_carry]

theorem State.stageStep_minute_carry (s : State) : (s.stageStep 1).2 = decide (bcd2dec (s.reg 1) = 59) := by
  simp [State.stageStep, bcdStep_carry]

theorem State.stageStep_hour_carry (s : State) : (s.stageStep 2).2 = decide (bcd2dec (s.reg 2) = 23) := by
  simp [State.stageStep, bcdStep_carry]

theorem State.stageStep_date_carry (hok : s.stageOk 4 = true) :
    (s.stageStep 4).2 = decide (bcd2dec (s.reg 4) = mlen (bcd2dec (s.reg 5)) s.leap) := by
  rw [State.stageStep, dateStep_eq hok]
  split_ifs <;> simp [*]

theorem State.stageStep_month_carry (s : State) : (s.stageStep 5).2 = decide (bcd2dec (s.reg 5) = 12) := by
  simp [State.stageStep, bcdStep_carry]

theorem State.stageStep_year_carry (s : State) : (s.stageStep 6).2 = decide (bcd2dec (s.reg 6) = 99) := by
  simp [State.stageStep, bcdStep_carry]

end InnerValues

/-- Below 59 the second stage is the whole operation. -/
theorem State.stage_second_of_lt {s : State} (hbcd : isBcd (s.reg 0) = true) (hlt : bcd2dec (s.reg 0) < 59) :
    s.stage 0 = s.setReg 0 (dec2bcd (bcd2dec (s.reg 0) + 1)) := by
  have hok : s.stageOk 0 = true := bcdIn_iff.mpr ⟨hbcd, Nat.zero_le _, by omega⟩
  have hcarry : (s.stageStep 0).2 = false := by rw [State.stageStep_second_carry]; exact decide_eq_false (by omega)
  have hvalue : (s.stageStep 0).1 = dec2bcd (bcd2dec (s.reg 0) + 1) := (bcdStep_value _ _ _).trans (if_neg (by omega))
  rw [State.stage_of_no_carry (by decide) hok hcarry, hvalue]
  rfl

/-- What a stage that counts from 0 does to its field, and without a carry to the fields after it. -/
theorem State.stage_counts {u : State} {j limit : Nat} (hj : j ≤ 7) (hok : u.stageOk j = true)
    (hstep : u.stageStep j = bcdStep (u.reg j) limit 0) (hlt : bcd2dec (u.reg j) < limit) :
    (u.stage j).reg j = dec2bcd ((bcd2dec (u.reg j) + 1) % limit)
      ∧ (bcd2dec (u.reg j) + 1 < limit → ∀ a, a ≠ j → a ≠ 30 → (u.stage j).reg a = u.reg a) := by
  refine ⟨?_, fun hinner a ha ha30 => ?_⟩
  · rw [State.stage_reg_self hj hok, hstep, bcdStep_value_mod hlt]
  · have hcarry : (u.stageStep j).2 = false := by rw [hstep, bcdStep_carry]; exact decide_eq_false (by omega)
    exact State.stage_reg_of_no_carry hj hok hcarry ha ha30

/-- What the date stage does to the date, and within a month to the fields after it (R90). -/
theorem State.stage_date_reg {u : State} (hok : dateStepOk (u.reg 4) (u.reg 5) u.leap = true) :
    (u.stage 4).reg 4
        = (if bcd2dec (u.reg 4) = mlen (bcd2dec (u.reg 5)) u.leap then 0x01 else dec2bcd (bcd2dec (u.reg 4) + 1))
      ∧ (bcd2dec (u.reg 4) ≠ mlen (bcd2dec (u.reg 5)) u.leap → ∀ a, a ≠ 4 → a ≠ 30 → (u.stage 4).reg a = u.reg a) := by
  have hok' : u.stageOk 4 = true := hok
  refine ⟨?_, fun hne a ha ha30 => ?_⟩
  · rw [State.stage_reg_self (by decide) hok', State.stageStep, dateStep_eq hok]
    split_ifs <;> rfl
  · have hcarry : (u.stageStep 4).2 = false := by rw [State.stageStep_date_carry hok']; exact decide_eq_false hne
    exact State.stage_reg_of_no_carry (by decide) hok' hcarry ha ha30

/-! #### The stages of one increment, from the state before it -/

/-- Settles O46: without a carry the second stage ends the operation. -/
theorem unreachedStagesAreNotAffected : Obligations.UnreachedStagesAreNotAffected := by
  intro s h
  obtain ⟨hbcd, -, hlt⟩ := bcdIn_iff.mp h
  refine ⟨s.mem.write 0 (dec2bcd (bcd2dec (s.reg 0) + 1)), ?_, Memory.read_write _ _ _⟩
  rw [exec_actTimeInc, State.stage_second_of_lt hbcd hlt]
  rfl

/-- The state in which the day stage runs: second, minute and hour have started again. -/
def State.midnight (s : State) : State := ((s.setReg 0 0x00).setReg 1 0x00).setReg 2 0x00

theorem State.midnight_reg (s : State) {a : Nat} (ha : 3 ≤ a) : s.midnight.reg a = s.reg a := by
  simp only [State.midnight, State.reg_setReg]
  rw [if_neg (by omega), if_neg (by omega), if_neg (by omega)]

theorem State.stage_of_midnight {s : State} (hsec : s.reg 0 = 0x59) (hmin : s.reg 1 = 0x59) (hhour : s.reg 2 = 0x23) :
    s.stage 0 = s.midnight.stage 3 := by
  rw [State.stage_second_of_last hsec, State.stage_minute_of_last (by simpa using hmin),
    State.stage_hour_of_last (by simpa using hhour)]
  rfl

/-- The state in which the date stage runs. -/
def State.newDay (s : State) : State := s.midnight.setReg 3 (if s.reg 3 = 7 then 1 else s.reg 3 + 1)

theorem State.newDay_reg (s : State) {a : Nat} (ha : 4 ≤ a) : s.newDay.reg a = s.reg a := by
  rw [State.newDay, State.reg_setReg, if_neg (by omega), s.midnight_reg (by omega)]

theorem State.stage_of_newDay {s : State} (hsec : s.reg 0 = 0x59) (hmin : s.reg 1 = 0x59) (hhour : s.reg 2 = 0x23)
    (hlo : 1 ≤ (s.reg 3).toNat) (hhi : (s.reg 3).toNat ≤ 7) : s.stage 0 = s.newDay.stage 4 := by
  have hdow : s.midnight.reg 3 = s.reg 3 := s.midnight_reg (by decide)
  rw [State.stage_of_midnight hsec hmin hhour, State.stage_day (by rwa [hdow]) (by rwa [hdow]), hdow, State.newDay]

/-- Settles O42: each stage in turn, reached by the last values of the fields before it. -/
theorem carryChainFromSecondToDay : Obligations.CarryChainFromSecondToDay := by
  intro s t h
  rw [exec_actTimeInc] at h
  cases h
  refine ⟨fun hok => ⟨?_, fun hlt a ha => ?_⟩, fun hsec hok => ?_, fun hsec hmin hok => ?_,
    fun hsec hmin hhour hlo hhi => ?_⟩
  · exact (State.stage_counts (j := 0) (by decide) hok rfl (bcdIn_iff.mp hok).2.2).1
  · rw [State.stage_second_of_lt (isBcd_of_bcdIn hok) hlt, State.reg_setReg, if_neg ha]
  · rw [State.stage_second_of_last hsec]
    have hreg : ∀ a, 1 ≤ a → (s.setReg 0 0x00).reg a = s.reg a := fun a ha => by rw [State.reg_setReg, if_neg (by omega)]
    obtain ⟨hself, hothers⟩ := State.stage_counts (u := s.setReg 0 0x00) (j := 1) (limit := 60) (by decide)
      (by rwa [State.stageOk, hreg 1 le_rfl]) rfl (by rw [hreg 1 le_rfl]; exact (bcdIn_iff.mp hok).2.2)
    rw [hreg 1 le_rfl] at hself hothers
    exact ⟨hself, fun hlt a hlo hhi => by rw [hothers (by omega) a (by omega) (by omega), hreg a (by omega)]⟩
  · rw [State.stage_second_of_last hsec, State.stage_minute_of_last (by simpa using hmin)]
    have hreg : ∀ a, 2 ≤ a → ((s.setReg 0 0x00).setReg 1 0x00).reg a = s.reg a := fun a ha => by
      rw [State.reg_setReg, if_neg (by omega), State.reg_setReg, if_neg (by omega)]
    obtain ⟨hself, hothers⟩ := State.stage_counts (u := (s.setReg 0 0x00).setReg 1 0x00) (j := 2) (limit := 24) (by decide)
      (by rwa [State.stageOk, hreg 2 le_rfl]) rfl (by rw [hreg 2 le_rfl]; exact (bcdIn_iff.mp hok).2.2)
    rw [hreg 2 le_rfl] at hself hothers
    exact ⟨hself, fun hlt a hlo hhi => by rw [hothers (by omega) a (by omega) (by omega), hreg a (by omega)]⟩
  · rw [State.stage_of_newDay hsec hmin hhour hlo hhi]
    refine ⟨?_, fun hok => ?_⟩
    · rw [State.stage_reg_of_lt _ (by decide) (by decide), State.newDay, State.reg_setReg, if_pos rfl]
    · obtain ⟨hself, hothers⟩ := State.stage_date_reg (u := s.newDay)
        (by rwa [s.newDay_reg (by decide), s.newDay_reg (by decide)])
      rw [s.newDay_reg (by decide), s.newDay_reg (by decide)] at hself hothers
      exact ⟨hself, fun hne a hlo hhi => by rw [hothers hne a (by omega) (by omega), s.newDay_reg (by omega)]⟩

end Sys2Proof.Machine

/-! ### The end of a month, and the frame of ACT_TIME_INC -/

namespace Sys2Proof.Machine

/-! #### The last stages (41_calendar.md R91 to R93) -/

theorem isBcd_bcdStep_zero {b : Byte} (h : isBcd b = true) : isBcd (bcdStep b 100 0).1 = true :=
  (bcdStep_spec h (bcd2dec_lt_of_isBcd h) le_rfl (by decide)).1

/-- On a valid year the recompute uses no free value (R95). -/
theorem State.checkLeapYear_of_valid {s : State} (hcent : isBcd (s.reg 7) = true) (hyear : isBcd (s.reg 6) = true) :
    s.checkLeapYear = { s with leap := isLeap (s.reg 7) (s.reg 6) } := by
  rw [State.checkLeapYear, if_pos (by simp [hcent, hyear])]

theorem State.stage_century {s : State} (hcent : isBcd (s.reg 7) = true) :
    s.stage 7 = (s.setReg 7 (bcdStep (s.reg 7) 100 0).1).checkLeapYear.checkAlarms := if_pos hcent

/-- The century stage of a valid year writes registers and `LEAP` alone. -/
theorem State.stage_century_counters {s : State} (hcent : isBcd (s.reg 7) = true) (hyear : isBcd (s.reg 6) = true) :
    (s.stage 7).freeCount = s.freeCount ∧ (s.stage 7).marked = s.marked := by
  rw [State.stage_century hcent, State.checkLeapYear_of_valid (by simpa using isBcd_bcdStep_zero hcent)
    (by simpa using hyear)]
  exact ⟨rfl, rfl⟩

theorem State.CalFrame.eq_of_counters {s t : State} (h : s.CalFrame t) (hcount : t.freeCount = s.freeCount)
    (hmark : t.marked = s.marked) : t = { s with mem := t.mem, leap := t.leap } := by
  obtain ⟨⟨m, l, f, k, rfl⟩, -, -⟩ := h
  obtain rfl : f = s.freeCount := hcount
  obtain rfl : k = s.marked := hmark
  rfl

/-- The state in which the month stage runs. -/
def State.newMonth (s : State) : State := s.newDay.setReg 4 0x01

theorem State.newMonth_reg (s : State) {a : Nat} (ha : 5 ≤ a) : s.newMonth.reg a = s.reg a := by
  rw [State.newMonth, State.reg_setReg, if_neg (by omega), s.newDay_reg (by omega)]

/-- The state in which the year stage runs. -/
def State.newYear (s : State) : State := s.newMonth.setReg 5 0x01

theorem State.newYear_reg (s : State) {a : Nat} (ha : 6 ≤ a) : s.newYear.reg a = s.reg a := by
  rw [State.newYear, State.reg_setReg, if_neg (by omega), s.newMonth_reg (by omega)]

theorem State.stage_of_newMonth {s : State} (hday : s.stage 0 = s.newDay.stage 4)
    (hok : dateStepOk (s.reg 4) (s.reg 5) s.leap = true) (hlast : bcd2dec (s.reg 4) = mlen (bcd2dec (s.reg 5)) s.leap) :
    s.stage 0 = s.newMonth.stage 5 := by
  have hdate : s.newDay.reg 4 = s.reg 4 := s.newDay_reg (by decide)
  have hmonth : s.newDay.reg 5 = s.reg 5 := s.newDay_reg (by decide)
  rw [hday, State.stage_date_of_last (by rwa [hdate, hmonth]) (by rwa [hdate, hmonth]), State.newMonth]

theorem State.stage_of_newYear {s : State} (hmonth : s.stage 0 = s.newMonth.stage 5) (hlast : s.reg 5 = 0x12) :
    s.stage 0 = s.newYear.stage 6 := by
  rw [hmonth, State.stage_month_of_last (by rwa [s.newMonth_reg (by decide)]), State.newYear]

/-- What the month stage does to the month, and within a year to the fields after it (R91). -/
theorem State.stage_month_reg {u : State} (hok : bcdIn (u.reg 5) 1 13 = true) :
    (u.stage 5).reg 5 = (if u.reg 5 = 0x12 then 0x01 else dec2bcd (bcd2dec (u.reg 5) + 1))
      ∧ (u.reg 5 ≠ 0x12 → ∀ a, a ≠ 5 → a ≠ 30 → (u.stage 5).reg a = u.reg a) := by
  have hok' : u.stageOk 5 = true := hok
  have hlast : bcd2dec (u.reg 5) + 1 = 13 ↔ u.reg 5 = 0x12 := by
    rw [Nat.add_right_cancel_iff (n := 1) (k := 12)]
    exact bcd2dec_eq_iff (isBcd_of_bcdIn hok) (by decide)
  refine ⟨?_, fun hne a ha ha30 => ?_⟩
  · rw [State.stage_reg_self (by decide) hok', State.stageStep, bcdStep_value]
    exact if_congr hlast rfl rfl
  · have hcarry : (u.stageStep 5).2 = false := by
      rw [State.stageStep, bcdStep_carry]; exact decide_eq_false (mt hlast.mp hne)
    exact State.stage_reg_of_no_carry (by decide) hok' hcarry ha ha30

/-- Settles O43: the stages from the month's on, reached by the last day of a month. -/
theorem carryChainFromMonthToCentury : Obligations.CarryChainFromMonthToCentury := by
  intro s t hsec hmin hhour hlo hhi hmonth hdate hlast h
  rw [exec_actTimeInc] at h
  cases h
  have hframe : s.CalFrame (s.stage 0) := State.calFrame_timeInc s
  have hok : dateStepOk (s.reg 4) (s.reg 5) s.leap = true := by
    have := (one_le_mlen (bcd2dec (s.reg 5)) s.leap).1
    exact dateStepOk_iff.mpr ⟨hdate, hmonth, by omega, by omega⟩
  have hstage := State.stage_of_newMonth (State.stage_of_newDay hsec hmin hhour hlo hhi) hok hlast
  obtain ⟨hself, hothers⟩ := State.stage_month_reg (u := s.newMonth) (by rwa [s.newMonth_reg (by decide)])
  rw [← hstage, s.newMonth_reg (by decide)] at hself hothers
  refine ⟨hself, fun hne => ?_, fun hlastMonth hyear => ?_, fun hlastMonth hlastYear hcent => ?_⟩
  · rw [hothers hne 6 (by decide) (by decide), hothers hne 7 (by decide) (by decide), s.newMonth_reg (by decide),
      s.newMonth_reg (by decide)]
    exact ⟨rfl, rfl⟩
  · have hreg : s.newYear.reg 6 = s.reg 6 := s.newYear_reg (by decide)
    obtain ⟨hself, hothers⟩ := State.stage_counts (u := s.newYear) (j := 6) (limit := 100) (by decide)
      (by rwa [State.stageOk, hreg]) rfl (by rw [hreg]; exact bcd2dec_lt_of_isBcd hyear)
    rw [← State.stage_of_newYear hstage hlastMonth, hreg] at hself hothers
    refine ⟨hself, fun hne => ?_⟩
    have hlt : bcd2dec (s.reg 6) + 1 < 100 := by
      have := bcd2dec_lt_of_isBcd hyear
      have : bcd2dec (s.reg 6) ≠ 99 := mt (bcd2dec_eq_iff hyear (by decide)).mp hne
      omega
    rw [hothers hlt 7 (by decide) (by decide), s.newYear_reg (by decide)]
  · have hcentury : s.stage 0 = (s.newYear.setReg 6 0x00).stage 7 := by
      rw [State.stage_of_newYear hstage hlastMonth, State.stage_year_of_last (by rwa [s.newYear_reg (by decide)])]
    have hreg : (s.newYear.setReg 6 0x00).reg 7 = s.reg 7 := by
      rw [State.reg_setReg, if_neg (by decide), s.newYear_reg (by decide)]
    have hcent' : isBcd ((s.newYear.setReg 6 0x00).reg 7) = true := by rwa [hreg]
    obtain ⟨hself, -⟩ := State.stage_counts (u := s.newYear.setReg 6 0x00) (j := 7) (limit := 100) (by decide)
      hcent' rfl (by rw [hreg]; exact bcd2dec_lt_of_isBcd hcent)
    obtain ⟨hcount, hmark⟩ := State.stage_century_counters (s := s.newYear.setReg 6 0x00) hcent'
      (by rw [State.reg_setReg, if_pos rfl]; decide)
    rw [← hcentury] at hself hcount hmark
    rw [hreg] at hself
    exact ⟨hself, hframe.eq_of_counters hcount hmark, hframe.2.1⟩

/-! #### What an ACT_TIME_INC can do to AIF and to the mark (42_alarm.md R106, R110) -/

theorem getLsbD_matchMask : ∀ n < 7, 1 ≤ n → ∀ j < 8, (1#8 <<< (n - 1)).getLsbD j = decide (j + 1 = n) := by decide

theorem State.getLsbD_matchBit (s : State) {n j : Nat} (hlo : 1 ≤ n) (hhi : n ≤ 6) (hj : j < 8) :
    (s.matchBit n).getLsbD j = (s.alarmMatch n && decide (j + 1 = n)) := by
  unfold State.matchBit
  cases s.alarmMatch n with
  | true => simpa using getLsbD_matchMask n (by omega) hlo j hj
  | false => simp

/-- Bit `j` of the comparator's result is the match of alarm `j + 1` (R106). -/
theorem State.getLsbD_alarmMatches (s : State) {j : Nat} (hj : j < 8) :
    s.alarmMatches.getLsbD j = (decide (j < 6) && s.alarmMatch (j + 1)) := by
  simp only [State.alarmMatches, BitVec.getLsbD_or, s.getLsbD_matchBit (n := 1) (by decide) (by decide) hj,
    s.getLsbD_matchBit (n := 2) (by decide) (by decide) hj, s.getLsbD_matchBit (n := 3) (by decide) (by decide) hj,
    s.getLsbD_matchBit (n := 4) (by decide) (by decide) hj, s.getLsbD_matchBit (n := 5) (by decide) (by decide) hj,
    s.getLsbD_matchBit (n := 6) (by decide) (by decide) hj]
  interval_cases j <;> simp

theorem getLsbD_flagMask : ∀ j < 8, (0x3F : Byte).getLsbD j = decide (j < 6) := by decide

/-- `t` has the alarm flags of `s` and perhaps more, its bits 7 and 6, and its mark if `s` is marked. -/
def State.LatchFrame (s t : State) : Prop :=
  (∃ m : Byte, t.reg 30 = s.reg 30 ||| (m &&& 0x3F)) ∧ (s.marked = true → t.marked = true)

theorem State.LatchFrame.of_eq {s t : State} (hreg : t.reg 30 = s.reg 30) (hmark : t.marked = s.marked) :
    s.LatchFrame t := by
  have hzero : s.reg 30 ||| ((0x00 : Byte) &&& 0x3F) = s.reg 30 := BitVec.or_zero
  exact ⟨⟨0x00, hreg.trans hzero.symm⟩, fun h => hmark.trans h⟩

theorem State.LatchFrame.trans {s t u : State} (h : s.LatchFrame t) (h' : t.LatchFrame u) : s.LatchFrame u := by
  obtain ⟨⟨m, hm⟩, hmark⟩ := h
  obtain ⟨⟨m', hm'⟩, hmark'⟩ := h'
  refine ⟨⟨m ||| m', ?_⟩, fun hs => hmark' (hmark hs)⟩
  rw [hm', hm, BitVec.or_assoc, BitVec.and_comm m, BitVec.and_comm m', ← BitVec.and_or_distrib_left, BitVec.and_comm]

theorem State.latchFrame_checkAlarms (s : State) : s.LatchFrame s.checkAlarms := by
  refine ⟨⟨s.alarmMatches, ?_⟩, id⟩
  have hmask : s.alarmMatches &&& 0x3F = s.alarmMatches := by
    refine BitVec.eq_of_getLsbD_eq fun j hj => ?_
    rw [BitVec.getLsbD_and, s.getLsbD_alarmMatches hj, getLsbD_flagMask j hj]
    cases decide (j < 6) <;> simp
  rw [State.checkAlarms_reg, if_pos rfl, hmask]

theorem State.latchFrame_timeInc (s : State) : s.LatchFrame (s.stage 0) :=
  State.stage_rel (R := State.LatchFrame) (lo := 0) (fun _ => .of_eq rfl rfl) State.LatchFrame.trans
    (fun s i v _ hi => .of_eq (by rw [State.reg_setReg, if_neg (by omega)]) rfl)
    (fun s => .of_eq (s.checkLeapYear_reg 30) s.checkLeapYear_marked)
    State.latchFrame_checkAlarms (fun s i _ _ => ⟨⟨_, s.unspecifiedFrom_aif i⟩, fun _ => rfl⟩) s le_rfl (by decide)

/-- The bits of AIF that a flag may be added to: none of 7 and 6, and no flag is cleared. -/
theorem State.LatchFrame.getLsbD {s t : State} (h : s.LatchFrame t) {j : Nat} (hj : j < 8) :
    ((s.reg 30).getLsbD j = true → (t.reg 30).getLsbD j = true)
      ∧ (6 ≤ j → (t.reg 30).getLsbD j = (s.reg 30).getLsbD j) := by
  obtain ⟨⟨m, hm⟩, -⟩ := h
  rw [hm, BitVec.getLsbD_or, BitVec.getLsbD_and, getLsbD_flagMask j hj]
  refine ⟨fun hs => by rw [hs, Bool.true_or], fun h6 => ?_⟩
  rw [decide_eq_false (by omega), Bool.and_false, Bool.or_false]

theorem State.LatchFrame.masks {s t : State} (h : s.LatchFrame t) :
    s.reg 30 &&& ~~~(t.reg 30) = 0 ∧ t.reg 30 &&& 0xC0 = s.reg 30 &&& 0xC0 := by
  have hhigh : ∀ j < 8, (0xC0 : Byte).getLsbD j = decide (6 ≤ j) := by decide
  refine ⟨BitVec.eq_of_getLsbD_eq fun j hj => ?_, BitVec.eq_of_getLsbD_eq fun j hj => ?_⟩
  · have hkeep := (h.getLsbD hj).1
    rw [BitVec.getLsbD_and, BitVec.getLsbD_not, decide_eq_true hj, Bool.true_and]
    cases hs : (s.reg 30).getLsbD j <;> simp_all
  · have hsame := (h.getLsbD hj).2
    rw [BitVec.getLsbD_and, BitVec.getLsbD_and, hhigh j hj]
    by_cases h6 : 6 ≤ j
    · rw [hsame h6]
    · simp [h6]

/-- Settles O47: the two frames of the operation, and the mark of its first stage. -/
theorem timeIncrementFrameInEveryState : Obligations.TimeIncrementFrameInEveryState := by
  intro s
  have hframe : s.CalFrame (s.stage 0) := State.calFrame_timeInc s
  obtain ⟨⟨m, l, f, k, heq⟩, hreg, -⟩ := hframe
  obtain ⟨hflags, hhigh⟩ := s.latchFrame_timeInc.masks
  refine ⟨s.stage 0, exec_actTimeInc s, by rw [heq], hreg, hflags, hhigh, s.latchFrame_timeInc.2, fun hbad => ?_⟩
  rw [State.stage_of_not_ok (j := 0) (by decide) hbad]
  exact s.unspecifiedFrom_marked 0

end Sys2Proof.Machine

/-! ### ACT_TIME_INC refines the civil second (41_calendar.md R97, R100) -/

namespace Sys2Proof.Machine

/-- `CalValid` (R97), its parts by name. -/
structure State.Valid (s : State) : Prop where
  sec : bcdIn (s.reg 0) 0 60 = true
  min : bcdIn (s.reg 1) 0 60 = true
  hour : bcdIn (s.reg 2) 0 24 = true
  dow : 1 ≤ (s.reg 3).toNat ∧ (s.reg 3).toNat ≤ 7
  date : dateStepOk (s.reg 4) (s.reg 5) s.leap = true
  year : isBcd (s.reg 6) = true
  cent : isBcd (s.reg 7) = true
  leap : s.leap = isLeap (s.reg 7) (s.reg 6)

theorem State.calValid_iff {s : State} : s.calValid = true ↔ s.Valid := by
  simp only [State.calValid, Bool.and_eq_true, decide_eq_true_eq, beq_iff_eq]
  constructor
  · rintro ⟨⟨⟨⟨⟨⟨⟨⟨hsec, hmin⟩, hhour⟩, hlo⟩, hhi⟩, hdate⟩, hyear⟩, hcent⟩, hleap⟩
    exact ⟨hsec, hmin, hhour, ⟨hlo, hhi⟩, hdate, hyear, hcent, hleap⟩
  · rintro ⟨hsec, hmin, hhour, ⟨hlo, hhi⟩, hdate, hyear, hcent, hleap⟩
    exact ⟨⟨⟨⟨⟨⟨⟨⟨hsec, hmin⟩, hhour⟩, hlo⟩, hhi⟩, hdate⟩, hyear⟩, hcent⟩, hleap⟩

/-- `t` is what an operation on a valid calendar may answer from `s`: valid again, at civil time `c`, the model's own counter
and mark as before. -/
structure State.Advances (s t : State) (c : Civil) : Prop where
  valid : t.Valid
  civil : t.civil = c
  count : t.freeCount = s.freeCount
  mark : t.marked = s.marked

/-- The comparator is no part of the calendar: it writes AIF alone (42_alarm.md R106). -/
theorem State.checkAlarms_advances {s t : State} {c : Civil} (h : s.Advances t c) : s.Advances t.checkAlarms c := by
  have hreg : ∀ a, a ≠ 30 → t.checkAlarms.reg a = t.reg a := fun a ha => by rw [State.checkAlarms_reg, if_neg ha]
  obtain ⟨⟨hsec, hmin, hhour, hdow, hdate, hyear, hcent, hleap⟩, hcivil, hcount, hmark⟩ := h
  refine ⟨⟨?_, ?_, ?_, ?_, ?_, ?_, ?_, ?_⟩, ?_, hcount, hmark⟩
  all_goals simpa [State.civil, hreg] using ‹_›

/-! #### A field of a valid calendar is stored -/

section Stored

variable {s : State} {v : Byte}

theorem State.Valid.setSec (h : s.Valid) (hv : bcdIn v 0 60 = true) :
    s.Advances (s.setReg 0 v) { s.civil with sec := bcd2dec v } := by
  obtain ⟨hsec, hmin, hhour, hdow, hdate, hyear, hcent, hleap⟩ := h
  exact ⟨by constructor <;> simpa, by simp [State.civil], rfl, rfl⟩

theorem State.Valid.setMin (h : s.Valid) (hv : bcdIn v 0 60 = true) :
    s.Advances (s.setReg 1 v) { s.civil with min := bcd2dec v } := by
  obtain ⟨hsec, hmin, hhour, hdow, hdate, hyear, hcent, hleap⟩ := h
  exact ⟨by constructor <;> simpa, by simp [State.civil], rfl, rfl⟩

theorem State.Valid.setHour (h : s.Valid) (hv : bcdIn v 0 24 = true) :
    s.Advances (s.setReg 2 v) { s.civil with hour := bcd2dec v } := by
  obtain ⟨hsec, hmin, hhour, hdow, hdate, hyear, hcent, hleap⟩ := h
  exact ⟨by constructor <;> simpa, by simp [State.civil], rfl, rfl⟩

theorem State.Valid.setDow (h : s.Valid) (hv : 1 ≤ v.toNat ∧ v.toNat ≤ 7) :
    s.Advances (s.setReg 3 v) { s.civil with dow := v.toNat } := by
  obtain ⟨hsec, hmin, hhour, hdow, hdate, hyear, hcent, hleap⟩ := h
  exact ⟨by constructor <;> simpa, by simp [State.civil], rfl, rfl⟩

theorem State.Valid.setDate (h : s.Valid) (hv : dateStepOk v (s.reg 5) s.leap = true) :
    s.Advances (s.setReg 4 v) { s.civil with date := bcd2dec v } := by
  obtain ⟨hsec, hmin, hhour, hdow, hdate, hyear, hcent, hleap⟩ := h
  exact ⟨by constructor <;> simpa, by simp [State.civil], rfl, rfl⟩

/-- The first of a month is a date of every month. -/
theorem State.Valid.setMonth (h : s.Valid) (hfirst : s.civil.date = 1) (hv : bcdIn v 1 13 = true) :
    s.Advances (s.setReg 5 v) { s.civil with month := bcd2dec v } := by
  have hdate : dateStepOk (s.reg 4) v s.leap = true := by
    have hone : bcd2dec (s.reg 4) = 1 := hfirst
    have := (one_le_mlen (bcd2dec v) s.leap).1
    exact dateStepOk_iff.mpr ⟨(dateStepOk_iff.mp h.date).1, hv, by omega, by omega⟩
  obtain ⟨hsec, hmin, hhour, hdow, -, hyear, hcent, hleap⟩ := h
  exact ⟨by constructor <;> simpa, by simp [State.civil], rfl, rfl⟩

/-- A new year is stored and the indicator recomputed: in January the date does not depend on it. -/
theorem State.Valid.setYear (h : s.Valid) (hjanuary : s.civil.month = 1) {u : State} (hreg : ∀ a ≤ 5, u.reg a = s.reg a)
    (hyear : isBcd (u.reg 6) = true) (hcent : isBcd (u.reg 7) = true) (hcount : u.freeCount = s.freeCount)
    (hmark : u.marked = s.marked) :
    s.Advances u.checkLeapYear { s.civil with year := 100 * bcd2dec (u.reg 7) + bcd2dec (u.reg 6) } := by
  have hdate : dateStepOk (s.reg 4) (s.reg 5) (isLeap (u.reg 7) (u.reg 6)) = true := by
    obtain ⟨hbcd, hmonth, hlo, hhi⟩ := dateStepOk_iff.mp h.date
    have hone : bcd2dec (s.reg 5) = 1 := hjanuary
    rw [hone] at hhi
    exact dateStepOk_iff.mpr ⟨hbcd, hmonth, hlo, by rw [hone]; exact hhi⟩
  obtain ⟨hsec, hmin, hhour, hdow, -, -, -, -⟩ := h
  rw [State.checkLeapYear_of_valid hcent hyear]
  have hreg' : ∀ a, ({ u with leap := isLeap (u.reg 7) (u.reg 6) } : State).reg a = u.reg a := fun _ => rfl
  refine ⟨⟨?_, ?_, ?_, ?_, ?_, hyear, hcent, rfl⟩, by simp [State.civil, hreg', hreg], hcount, hmark⟩
  all_goals simpa [hreg', hreg]

end Stored

/-! #### The civil clock, each hand from the one below -/

namespace Civil

variable (c : Civil) (k : Nat)

theorem nextMonth_with_date : ({ c with date := k } : Civil).nextMonth = { c.nextMonth with date := k } := by
  unfold nextMonth nextYear
  split_ifs <;> rfl

theorem nextDate_with_dow : ({ c with dow := k } : Civil).nextDate = { c.nextDate with dow := k } := by
  unfold nextDate nextMonth nextYear
  split_ifs <;> rfl

theorem nextDay_with_hour : ({ c with hour := k } : Civil).nextDay = { c.nextDay with hour := k } := by
  unfold nextDay nextDate nextMonth nextYear
  split_ifs <;> rfl

theorem nextHour_with_min : ({ c with min := k } : Civil).nextHour = { c.nextHour with min := k } := by
  unfold nextHour nextDay nextDate nextMonth nextYear
  split_ifs <;> rfl

theorem nextMinute_with_sec : ({ c with sec := k } : Civil).nextMinute = { c.nextMinute with sec := k } := by
  unfold nextMinute nextHour nextDay nextDate nextMonth nextYear
  split_ifs <;> rfl

end Civil

/-! #### The stages on a valid calendar -/

section Stages

variable {s : State}

theorem State.Advances.trans {t u : State} {c d : Civil} (h : s.Advances t c) (h' : t.Advances u d) : s.Advances u d :=
  ⟨h'.valid, h'.civil, h'.count.trans h.count, h'.mark.trans h.mark⟩

/-- A stage up to the month's: its field is stored, and the next stage runs or the operation ends. -/
theorem State.advances_of_stage {j : Nat} {c : Civil} (hj : j ≤ 5) (hok : s.stageOk j = true)
    (hcarry : (s.stageStep j).2 = true → s.Advances ((s.setReg j (s.stageStep j).1).stage (j + 1)) c)
    (hend : (s.stageStep j).2 = false → s.Advances (s.setReg j (s.stageStep j).1) c) : s.Advances (s.stage j) c := by
  cases h : (s.stageStep j).2 with
  | true => rw [State.stage_of_carry (by omega) hok h]; exact hcarry h
  | false =>
    rw [State.stage_of_no_carry (by omega) hok h, State.stageEnd]
    split_ifs
    · exact hend h
    · exact State.checkAlarms_advances (hend h)

/-- A stage that counts in BCD from `first` below `limit`: `put` stores its hand, `above` is the hand that it carries to. -/
theorem State.advances_of_counting {j limit first : Nat} {put : Nat → Civil} {above : Civil → Civil} {c : Civil}
    (hj : j ≤ 5) (hok : s.stageOk j = true) (hstep : s.stageStep j = bcdStep (s.reg j) limit first)
    (hfield : bcdIn (s.reg j) first limit = true) (hlimit : limit ≤ 100)
    (hset : ∀ v, bcdIn v first limit = true → s.Advances (s.setReg j v) (put (bcd2dec v)))
    (habove : ∀ u, s.Advances u (put first) → u.Advances (u.stage (j + 1)) (above (put first)))
    (hlast : bcd2dec (s.reg j) + 1 = limit → c = above (put first))
    (hinner : bcd2dec (s.reg j) + 1 ≠ limit → c = put (bcd2dec (s.reg j) + 1)) : s.Advances (s.stage j) c := by
  obtain ⟨hbcd, hlo, hhi⟩ := bcdIn_iff.mp hfield
  refine State.advances_of_stage hj hok (fun hcarry => ?_) (fun hcarry => ?_) <;>
    rw [hstep, bcdStep_carry] at hcarry <;> rw [hstep, bcdStep_value]
  · have hl := of_decide_eq_true hcarry
    have hfirst := hset _ (bcdIn_dec2bcd (d := first) le_rfl (by omega) (by omega))
    rw [bcd2dec_dec2bcd _ (by omega)] at hfirst
    rw [if_pos hl, hlast hl]
    exact hfirst.trans (habove _ hfirst)
  · have hl := of_decide_eq_false hcarry
    have hnext := hset _ (bcdIn_dec2bcd (d := bcd2dec (s.reg j) + 1) (by omega) (by omega) (by omega))
    rw [bcd2dec_dec2bcd _ (by omega)] at hnext
    rwa [if_neg hl, hinner hl]

/-- The year stage counts the four digits modulo 10000 (R92, R93). -/
theorem State.Valid.yearStage (h : s.Valid) (hjanuary : s.civil.month = 1) : s.Advances (s.stage 6) s.civil.nextYear := by
  have hyear : s.civil.year = 100 * bcd2dec (s.reg 7) + bcd2dec (s.reg 6) := rfl
  have hok : s.stageOk 6 = true := h.year
  obtain ⟨hbcd, hvalue, -⟩ := bcdStep_spec h.year (bcd2dec_lt_of_isBcd h.year) le_rfl (by decide : 0 < 100)
  obtain ⟨hbcd', hvalue', -⟩ := bcdStep_spec h.cent (bcd2dec_lt_of_isBcd h.cent) le_rfl (by decide : 0 < 100)
  have hlt := bcd2dec_lt_of_isBcd h.cent
  have hlt' := bcd2dec_lt_of_isBcd h.year
  cases hcarry : (s.stageStep 6).2 with
  | true =>
    have hlast : bcd2dec (s.reg 6) = 99 := by rw [State.stageStep_year_carry] at hcarry; exact of_decide_eq_true hcarry
    rw [State.stage_year_of_last ((bcd2dec_eq_iff h.year (by decide)).mp hlast), State.stage_century (by simpa using h.cent)]
    have hstored := h.setYear hjanuary (u := (s.setReg 6 0x00).setReg 7 (bcdStep (s.reg 7) 100 0).1)
      (fun a ha => by rw [State.reg_setReg, if_neg (by omega), State.reg_setReg, if_neg (by omega)])
      (by simp; decide) (by simpa using hbcd') rfl rfl
    have hcivil : s.civil.nextYear = { s.civil with
        year := 100 * bcd2dec (bcdStep (s.reg 7) 100 0).1 + bcd2dec (0x00 : Byte) } := by
      rw [Civil.nextYear, hyear, hvalue', show bcd2dec 0x00 = 0 by decide]
      congr 1
      split_ifs <;> omega
    rw [hcivil]
    simpa using State.checkAlarms_advances hstored
  | false =>
    have hinner : bcd2dec (s.reg 6) ≠ 99 := by rw [State.stageStep_year_carry] at hcarry; exact of_decide_eq_false hcarry
    rw [State.stage_of_no_carry (by decide) hok hcarry]
    have hstored := h.setYear hjanuary (u := s.setReg 6 (bcdStep (s.reg 6) 100 0).1)
      (fun a ha => by rw [State.reg_setReg, if_neg (by omega)]) (by simpa using hbcd) (by simpa using h.cent) rfl rfl
    have hcivil : s.civil.nextYear = { s.civil with
        year := 100 * bcd2dec (s.reg 7) + bcd2dec (bcdStep (s.reg 6) 100 0).1 } := by
      rw [Civil.nextYear, hyear, hvalue, if_neg (by omega)]
      congr 1
      omega
    rw [hcivil]
    change s.Advances (s.setReg 6 (bcdStep (s.reg 6) 100 0).1).checkLeapYear.checkAlarms _
    simpa using State.checkAlarms_advances hstored

/-- From the first of a month the month stage goes to the first of the next (R91). -/
theorem State.Valid.monthStage (h : s.Valid) (hfirst : s.civil.date = 1) : s.Advances (s.stage 5) s.civil.nextMonth := by
  have hmonth : bcdIn (s.reg 5) 1 13 = true := (dateStepOk_iff.mp h.date).2.1
  refine State.advances_of_counting (put := fun k => { s.civil with month := k })
    (above := fun c => c.nextYear) (by decide) hmonth rfl hmonth (by decide) (fun v hv => h.setMonth hfirst hv)
    (fun u hu => ?_) (fun hlast => ?_) (fun hinner => ?_)
  · rw [← hu.civil]
    exact hu.valid.yearStage (by rw [hu.civil])
  · have : s.civil.month = 12 := Nat.succ.inj hlast
    rw [Civil.nextMonth, if_pos this]; rfl
  · have : s.civil.month ≠ 12 := fun hm => hinner (congrArg Nat.succ hm)
    rw [Civil.nextMonth, if_neg this]; rfl

/-- The date stage, on the month length of the valid year (R87, R90). -/
theorem State.Valid.dateStage (h : s.Valid) : s.Advances (s.stage 4) s.civil.nextDate := by
  have hdays : mlen (bcd2dec (s.reg 5)) s.leap = Civil.monthDays s.civil.month s.civil.year := by
    rw [h.leap, isLeap_eq_leapYear, mlen_eq_monthDays]; rfl
  have hstep : s.stageStep 4 = _ := dateStep_eq h.date
  obtain ⟨hbcd, hmonth, hlo, hhi⟩ := dateStepOk_iff.mp h.date
  obtain ⟨hmin, hmax⟩ := one_le_mlen (bcd2dec (s.reg 5)) s.leap
  refine State.advances_of_stage (by decide) h.date (fun hcarry => ?_) (fun hcarry => ?_) <;>
    rw [State.stageStep_date_carry h.date] at hcarry <;> rw [hstep]
  · have hl := of_decide_eq_true hcarry
    have hfirst := h.setDate (v := 0x01) (dateStepOk_iff.mpr ⟨by decide, hmonth, by decide, (by decide : _ ≤ 28).trans hmin⟩)
    have hlast : s.civil.date = Civil.monthDays s.civil.month s.civil.year := hl.trans hdays
    have hcivil : s.civil.nextDate = ({ s.civil with date := 1 } : Civil).nextMonth := by
      rw [Civil.nextDate, if_pos hlast]; exact (Civil.nextMonth_with_date s.civil 1).symm
    have hone : bcd2dec 0x01 = 1 := by decide
    rw [hone] at hfirst
    rw [if_pos hl, hcivil, ← hfirst.civil]
    exact hfirst.trans (hfirst.valid.monthStage (by rw [hfirst.civil]))
  · have hl := of_decide_eq_false hcarry
    have hinner : s.civil.date ≠ Civil.monthDays s.civil.month s.civil.year := hdays ▸ hl
    have hvalue := bcd2dec_dec2bcd (bcd2dec (s.reg 4) + 1) (by omega)
    have hnext := h.setDate (v := dec2bcd (bcd2dec (s.reg 4) + 1))
      (dateStepOk_iff.mpr ⟨isBcd_dec2bcd _ (by omega), hmonth, by omega, by omega⟩)
    rw [hvalue] at hnext
    rw [if_neg hl, Civil.nextDate, if_neg hinner]
    exact hnext

/-- The hour's carry goes to the day of week and to the date (R86). -/
theorem State.Valid.dayStage (h : s.Valid) : s.Advances (s.stage 3) s.civil.nextDay := by
  obtain ⟨hlo, hhi⟩ := h.dow
  have hdow : (if s.reg 3 = 7 then 1 else s.reg 3 + 1).toNat = s.civil.dow % 7 + 1 := by
    have hciv : s.civil.dow = (s.reg 3).toNat := rfl
    rw [hciv]
    split_ifs with h7
    · rw [h7]; decide
    · have : (s.reg 3).toNat ≠ 7 := fun h => h7 (BitVec.eq_of_toNat_eq h)
      rw [BitVec.toNat_add, show ((1 : Byte).toNat) = 1 from rfl]
      omega
  have hstored := h.setDow (v := if s.reg 3 = 7 then 1 else s.reg 3 + 1) (by rw [hdow]; omega)
  have hcivil : s.civil.nextDay = ({ s.civil with dow := s.civil.dow % 7 + 1 } : Civil).nextDate :=
    (Civil.nextDate_with_dow s.civil _).symm
  rw [State.stage_day hlo hhi, hcivil, ← hdow, ← hstored.civil]
  exact hstored.trans hstored.valid.dateStage

theorem State.Valid.hourStage (h : s.Valid) : s.Advances (s.stage 2) s.civil.nextHour := by
  refine State.advances_of_counting (put := fun k => { s.civil with hour := k })
    (above := fun c => c.nextDay) (by decide) h.hour rfl h.hour (by decide) (fun v hv => h.setHour hv)
    (fun u hu => hu.civil ▸ hu.valid.dayStage) (fun hlast => ?_) (fun hinner => ?_)
  · have : s.civil.hour = 23 := Nat.succ.inj hlast
    rw [Civil.nextHour, if_pos this]; exact (Civil.nextDay_with_hour s.civil 0).symm
  · have : s.civil.hour ≠ 23 := fun hm => hinner (congrArg Nat.succ hm)
    rw [Civil.nextHour, if_neg this]; rfl

theorem State.Valid.minuteStage (h : s.Valid) : s.Advances (s.stage 1) s.civil.nextMinute := by
  refine State.advances_of_counting (put := fun k => { s.civil with min := k })
    (above := fun c => c.nextHour) (by decide) h.min rfl h.min (by decide) (fun v hv => h.setMin hv)
    (fun u hu => hu.civil ▸ hu.valid.hourStage) (fun hlast => ?_) (fun hinner => ?_)
  · have : s.civil.min = 59 := Nat.succ.inj hlast
    rw [Civil.nextMinute, if_pos this]; exact (Civil.nextHour_with_min s.civil 0).symm
  · have : s.civil.min ≠ 59 := fun hm => hinner (congrArg Nat.succ hm)
    rw [Civil.nextMinute, if_neg this]; rfl

/-- The whole operation: the next second of civil time (R82). -/
theorem State.Valid.timeInc (h : s.Valid) : s.Advances (s.stage 0) s.civil.nextSecond := by
  refine State.advances_of_counting (put := fun k => { s.civil with sec := k })
    (above := fun c => c.nextMinute) (by decide) h.sec rfl h.sec (by decide) (fun v hv => h.setSec hv)
    (fun u hu => hu.civil ▸ hu.valid.minuteStage) (fun hlast => ?_) (fun hinner => ?_)
  · have : s.civil.sec = 59 := Nat.succ.inj hlast
    rw [Civil.nextSecond, if_pos this]; exact (Civil.nextMinute_with_sec s.civil 0).symm
  · have : s.civil.sec ≠ 59 := fun hm => hinner (congrArg Nat.succ hm)
    rw [Civil.nextSecond, if_neg this]; rfl

end Stages

/-- Settles O44: the stages refine the hands of the civil clock, within the frame of the operation. -/
theorem timeIncrementIsCivilSuccessor : Obligations.TimeIncrementIsCivilSuccessor := by
  intro s hs
  have hvalid := State.calValid_iff.mp hs
  obtain ⟨hnext, hcivil, hcount, hmark⟩ := hvalid.timeInc
  have hframe : s.CalFrame (s.stage 0) := State.calFrame_timeInc s
  refine ⟨s.stage 0, exec_actTimeInc s, State.calValid_iff.mpr hnext, hcivil, hframe.eq_of_counters hcount hmark,
    hframe.2.1, fun hne => ?_⟩
  obtain ⟨hbcd, -, hlt⟩ := bcdIn_iff.mp hvalid.sec
  have hsec : bcd2dec (s.reg 0) ≠ 59 := mt (bcd2dec_eq_iff hbcd (by decide)).mp hne
  rw [State.stage_second_of_lt hbcd (by omega), State.reg_setReg, if_neg (by decide)]

end Sys2Proof.Machine

/-! ### Law 1 of R100: the seconds of a day -/

namespace Sys2Proof.Machine

/-! #### A wheel with a carry -/

/-- One turn of a wheel `hand` that `tick` moves and that carries by `carry` at `last`: after as many ticks as it has places
the wheel stands where it was and has carried once. -/
theorem iterate_turn {α : Type} {tick carry : α → α} {hand : α → Nat} {put : α → Nat → α} {last : Nat}
    (htick : ∀ c, tick c = if hand c = last then put (carry c) 0 else put c (hand c + 1))
    (hand_put : ∀ c k, hand (put c k) = k) (put_put : ∀ c k l, put (put c k) l = put c l)
    (put_hand : ∀ c, put c (hand c) = c) (carry_put : ∀ c k, carry (put c k) = put (carry c) k)
    {c : α} (hc : hand c ≤ last) : tick^[last + 1] c = carry c := by
  have hturn : ∀ (k : Nat) (d : α), hand d + k ≤ last → tick^[k] d = put d (hand d + k) := by
    intro k
    induction k with
    | zero => intro d _; exact (put_hand d).symm
    | succ k ih =>
      intro d hd
      rw [Function.iterate_succ_apply, htick, if_neg (by omega), ih _ (by rw [hand_put]; omega), hand_put, put_put]
      congr 1; omega
  have hend : tick^[last - hand c] c = put c last := by rw [hturn _ c (by omega)]; congr 1; omega
  have hcarry : tick (put c last) = put (carry c) 0 := by rw [htick, if_pos (hand_put _ _), carry_put, put_put]
  have hagain : tick^[hand c] (put (carry c) 0) = carry c := by
    rw [hturn _ _ (by rw [hand_put]; omega), hand_put, put_put, Nat.zero_add, ← carry_put, put_hand]
  have hsplit : last + 1 = hand c + (1 + (last - hand c)) := by omega
  rw [hsplit, Function.iterate_add_apply, Function.iterate_add_apply, hend, Function.iterate_one, hcarry, hagain]

/-- Turns of one wheel after the other are steps of the wheel above, as long as these keep the wheel at a place it has. -/
theorem iterate_turns {α : Type} {tick carry : α → α} {P : α → Prop} {m : Nat} (hturn : ∀ c, P c → tick^[m] c = carry c)
    (hkeep : ∀ c, P c → P (carry c)) (n : Nat) {c : α} (hc : P c) : tick^[m * n] c = carry^[n] c := by
  rw [Function.iterate_mul]
  induction n generalizing c with
  | zero => rfl
  | succ n ih => rw [Function.iterate_succ_apply, Function.iterate_succ_apply, hturn c hc, ih (hkeep c hc)]

end Sys2Proof.Machine

namespace Sys2Proof.Machine.Civil

variable {c : Civil}

theorem nextMinute_sec (c : Civil) : c.nextMinute.sec = c.sec := by
  unfold nextMinute nextHour nextDay nextDate nextMonth nextYear
  split_ifs <;> rfl

theorem nextHour_min (c : Civil) : c.nextHour.min = c.min := by
  unfold nextHour nextDay nextDate nextMonth nextYear
  split_ifs <;> rfl

theorem nextHour_sec (c : Civil) : c.nextHour.sec = c.sec := by
  unfold nextHour nextDay nextDate nextMonth nextYear
  split_ifs <;> rfl

theorem seconds_of_minute (hsec : c.sec ≤ 59) : nextSecond^[60] c = c.nextMinute :=
  iterate_turn (hand := sec) (put := fun c k => { c with sec := k }) (fun _ => rfl) (fun _ _ => rfl) (fun _ _ _ => rfl)
    (fun _ => rfl) (fun c k => c.nextMinute_with_sec k) hsec

theorem minutes_of_hour (hmin : c.min ≤ 59) : nextMinute^[60] c = c.nextHour :=
  iterate_turn (hand := min) (put := fun c k => { c with min := k }) (fun _ => rfl) (fun _ _ => rfl) (fun _ _ _ => rfl)
    (fun _ => rfl) (fun c k => c.nextHour_with_min k) hmin

theorem hours_of_day (hhour : c.hour ≤ 23) : nextHour^[24] c = c.nextDay :=
  iterate_turn (hand := hour) (put := fun c k => { c with hour := k }) (fun _ => rfl) (fun _ _ => rfl) (fun _ _ _ => rfl)
    (fun _ => rfl) (fun c k => c.nextDay_with_hour k) hhour

theorem seconds_of_hour (hsec : c.sec ≤ 59) (hmin : c.min ≤ 59) : nextSecond^[60 * 60] c = c.nextHour := by
  rw [iterate_turns (P := fun c => c.sec ≤ 59) (fun _ h => seconds_of_minute h) (fun c h => by rwa [nextMinute_sec]) 60 hsec]
  exact minutes_of_hour hmin

theorem seconds_of_day (hsec : c.sec ≤ 59) (hmin : c.min ≤ 59) (hhour : c.hour ≤ 23) :
    nextSecond^[60 * 60 * 24] c = c.nextDay := by
  rw [iterate_turns (P := fun c => c.sec ≤ 59 ∧ c.min ≤ 59) (fun _ h => seconds_of_hour h.1 h.2)
    (fun c h => by rwa [nextHour_sec, nextHour_min]) 24 ⟨hsec, hmin⟩]
  exact hours_of_day hhour

end Sys2Proof.Machine.Civil

namespace Sys2Proof.Machine

/-- Any number of increments from a valid calendar, by the step of one. -/
theorem execAll_timeIncs (n : Nat) {s : State} (h : s.calValid = true) :
    ∃ t, execAll (List.replicate n .actTimeInc) s = .next t ∧ t.calValid = true
      ∧ t.civil = Civil.nextSecond^[n] s.civil := by
  induction n generalizing s with
  | zero => exact ⟨s, rfl, h, rfl⟩
  | succ n ih =>
    obtain ⟨u, hu, hvalid, hcivil, -⟩ := timeIncrementIsCivilSuccessor s h
    obtain ⟨t, ht, hvalid', hcivil'⟩ := ih hvalid
    refine ⟨t, ?_, hvalid', by rw [hcivil', hcivil, Function.iterate_succ_apply]⟩
    rw [List.replicate_succ, execAll, hu]
    exact ht

/-- Settles O45: 60 seconds are a minute, 60 minutes an hour, 24 hours a day. -/
theorem secondsOfADayAdvanceTheDateByOne : Obligations.SecondsOfADayAdvanceTheDateByOne := by
  intro s h
  obtain ⟨t, ht, hvalid, hcivil⟩ := execAll_timeIncs (60 * 60 * 24) h
  have hs := State.calValid_iff.mp h
  have hday := Civil.seconds_of_day (c := s.civil) (Nat.le_of_lt_succ (bcdIn_iff.mp hs.sec).2.2)
    (Nat.le_of_lt_succ (bcdIn_iff.mp hs.min).2.2) (Nat.le_of_lt_succ (bcdIn_iff.mp hs.hour).2.2)
  exact ⟨t, ht, hvalid, hcivil.trans hday⟩

/-! ### The comparator at a minute boundary (42_alarm.md R99, R106 to R110) -/

/-- The operation ended with the comparator, run on a state with the alarms and the flags of `s`. -/
def State.EndsInComparator (s t : State) : Prop :=
  ∃ u : State, t = u.checkAlarms ∧ (∀ a, 8 ≤ a → u.reg a = s.reg a) ∧ u.conf = s.conf ∧ u.marked = s.marked

theorem State.endsInComparator_checkAlarms (s : State) : s.EndsInComparator s.checkAlarms :=
  ⟨s, rfl, fun _ _ => rfl, rfl, rfl⟩

theorem State.endsInComparator_leapThenAlarms (s : State) : s.EndsInComparator s.checkLeapYear.checkAlarms :=
  ⟨s.checkLeapYear, rfl, fun a _ => s.checkLeapYear_reg a, by rw [State.checkLeapYear_eq], s.checkLeapYear_marked⟩

/-- A time register is no alarm and no flag. -/
theorem State.EndsInComparator.of_setReg {s t : State} {j : Nat} {v : Byte} (hj : j ≤ 7)
    (h : (s.setReg j v).EndsInComparator t) : s.EndsInComparator t := by
  obtain ⟨u, heq, hreg, hconf, hmark⟩ := h
  refine ⟨u, heq, fun a ha => ?_, hconf, hmark⟩
  rw [hreg a ha, State.reg_setReg, if_neg (by omega)]

/-- A stage in its domain ends in the comparator if the stages that it carries to do. -/
theorem State.endsInComparator_stage {s : State} {j : Nat} (hj : 1 ≤ j) (hj7 : j ≤ 7) (hok : s.stageOk j = true)
    (hcarry : (s.stageStep j).2 = true →
      (s.setReg j (s.stageStep j).1).EndsInComparator ((s.setReg j (s.stageStep j).1).stage (j + 1))) :
    s.EndsInComparator (s.stage j) := by
  cases h : (s.stageStep j).2 with
  | true =>
    rw [State.stage_of_carry hj7 hok h]
    exact (hcarry h).of_setReg hj7
  | false =>
    rw [State.stage_of_no_carry hj7 hok h, State.stageEnd, if_neg (by omega)]
    split_ifs
    · exact (State.endsInComparator_checkAlarms _).of_setReg hj7
    · exact (State.endsInComparator_leapThenAlarms _).of_setReg hj7

/-! #### Domains of the stages that are reached, from each stage on (R98) -/

def State.yearDomain (s : State) : Prop := isBcd (s.reg 6) = true ∧ (s.reg 6 = 0x99 → isBcd (s.reg 7) = true)

def State.monthDomain (s : State) : Prop := bcdIn (s.reg 5) 1 13 = true ∧ (s.reg 5 = 0x12 → s.yearDomain)

def State.dateDomain (s : State) : Prop :=
  dateStepOk (s.reg 4) (s.reg 5) s.leap = true
    ∧ (bcd2dec (s.reg 4) = mlen (bcd2dec (s.reg 5)) s.leap → s.reg 5 = 0x12 → s.yearDomain)

def State.dayDomain (s : State) : Prop := (1 ≤ (s.reg 3).toNat ∧ (s.reg 3).toNat ≤ 7) ∧ s.dateDomain

def State.hourDomain (s : State) : Prop := bcdIn (s.reg 2) 0 24 = true ∧ (s.reg 2 = 0x23 → s.dayDomain)

def State.minuteDomain (s : State) : Prop := bcdIn (s.reg 1) 0 60 = true ∧ (s.reg 1 = 0x59 → s.hourDomain)

theorem State.minuteDomain_of_reachedInDomain {s : State} (h : s.reachedInDomain = true) (hsec : s.reg 0 = 0x59) :
    s.minuteDomain := by
  simp only [State.reachedInDomain, hsec, bne_self_eq_false, Bool.false_or, Bool.and_eq_true, Bool.or_eq_true,
    bne_iff_ne, decide_eq_true_eq] at h
  unfold State.minuteDomain State.hourDomain State.dayDomain State.dateDomain State.yearDomain
  tauto

/-! #### Every stage in its domain ends in the comparator -/

theorem State.endsInComparator_yearStage {s : State} (h : s.yearDomain) : s.EndsInComparator (s.stage 6) := by
  refine State.endsInComparator_stage (by decide) (by decide) h.1 fun hcarry => ?_
  rw [State.stageStep_year_carry] at hcarry
  have hlast : s.reg 6 = 0x99 := (bcd2dec_eq_iff h.1 (by decide)).mp (of_decide_eq_true hcarry)
  refine State.endsInComparator_stage (by decide) (by decide) ?_ fun _ => State.endsInComparator_leapThenAlarms _
  simpa [State.stageOk] using h.2 hlast

theorem State.endsInComparator_monthStage {s : State} (h : s.monthDomain) : s.EndsInComparator (s.stage 5) := by
  refine State.endsInComparator_stage (by decide) (by decide) h.1 fun hcarry => ?_
  rw [State.stageStep_month_carry] at hcarry
  have hlast : s.reg 5 = 0x12 := (bcd2dec_eq_iff (isBcd_of_bcdIn h.1) (by decide)).mp (of_decide_eq_true hcarry)
  refine State.endsInComparator_yearStage ?_
  simpa [State.yearDomain] using h.2 hlast

theorem State.endsInComparator_dateStage {s : State} (h : s.dateDomain) : s.EndsInComparator (s.stage 4) := by
  refine State.endsInComparator_stage (by decide) (by decide) h.1 fun hcarry => ?_
  rw [State.stageStep_date_carry h.1] at hcarry
  refine State.endsInComparator_monthStage ⟨?_, ?_⟩
  · simpa using (dateStepOk_iff.mp h.1).2.1
  · simpa [State.yearDomain] using h.2 (of_decide_eq_true hcarry)

theorem State.endsInComparator_dayStage {s : State} (h : s.dayDomain) : s.EndsInComparator (s.stage 3) := by
  refine State.endsInComparator_stage (by decide) (by decide) (decide_eq_true h.1) fun _ => ?_
  refine State.endsInComparator_dateStage ?_
  simpa [State.dateDomain, State.yearDomain] using h.2

theorem State.endsInComparator_hourStage {s : State} (h : s.hourDomain) : s.EndsInComparator (s.stage 2) := by
  refine State.endsInComparator_stage (by decide) (by decide) h.1 fun hcarry => ?_
  rw [State.stageStep_hour_carry] at hcarry
  have hlast : s.reg 2 = 0x23 := (bcd2dec_eq_iff (isBcd_of_bcdIn h.1) (by decide)).mp (of_decide_eq_true hcarry)
  refine State.endsInComparator_dayStage ?_
  simpa [State.dayDomain, State.dateDomain, State.yearDomain] using h.2 hlast

theorem State.endsInComparator_minuteStage {s : State} (h : s.minuteDomain) : s.EndsInComparator (s.stage 1) := by
  refine State.endsInComparator_stage (by decide) (by decide) h.1 fun hcarry => ?_
  rw [State.stageStep_minute_carry] at hcarry
  have hlast : s.reg 1 = 0x59 := (bcd2dec_eq_iff (isBcd_of_bcdIn h.1) (by decide)).mp (of_decide_eq_true hcarry)
  refine State.endsInComparator_hourStage ?_
  simpa [State.hourDomain, State.dayDomain, State.dateDomain, State.yearDomain] using h.2 hlast

/-- At a minute boundary with every reached stage in its domain the comparator is the end of the operation (R99). -/
theorem State.endsInComparator_of_minute {s : State} (hsec : s.reg 0 = 0x59) (h : s.reachedInDomain = true) :
    s.EndsInComparator (s.stage 0) := by
  rw [State.stage_second_of_last hsec]
  refine (State.endsInComparator_minuteStage ?_).of_setReg (by decide)
  simpa [State.minuteDomain, State.hourDomain, State.dayDomain, State.dateDomain, State.yearDomain]
    using State.minuteDomain_of_reachedInDomain h hsec

/-! #### What the comparator leaves in AIF -/

theorem State.alarmMatch_iff {s : State} {n : Nat} :
    s.alarmMatch n = true ↔ s.reg 1 = s.reg (8 + 3 * (n - 1)) ∧ s.reg 2 ||| 0x80 = s.reg (8 + 3 * (n - 1) + 1)
      ∧ ((s.reg (8 + 3 * (n - 1) + 2)).getLsbD 7 = true
        ∨ s.reg (8 + 3 * (n - 1) + 2) &&& dayMask s.conf (s.reg 3) ≠ 0) := by
  simp only [State.alarmMatch, Bool.and_eq_true, Bool.or_eq_true, decide_eq_true_eq, and_assoc]
  rfl

/-- Whether an alarm matches depends on the registers below AIF alone. -/
theorem State.alarmMatch_congr {s t : State} (hreg : ∀ a, a ≠ 30 → t.reg a = s.reg a) (hconf : t.conf = s.conf) {n : Nat}
    (hn : n ≤ 6) : t.alarmMatch n = s.alarmMatch n := by
  rw [Bool.eq_iff_iff, State.alarmMatch_iff, State.alarmMatch_iff, hreg 1 (by decide), hreg 2 (by decide),
    hreg 3 (by decide), hreg _ (by omega), hreg _ (by omega), hreg _ (by omega), hconf]

/-- A flag of AIF after the comparator: it was set, or its alarm matches the new time (R106, R110). -/
theorem State.EndsInComparator.flag {s t : State} (h : s.EndsInComparator t) {n : Nat} (hn : n < 6) :
    (t.reg 30).getLsbD n = ((s.reg 30).getLsbD n || t.alarmMatch (n + 1)) := by
  obtain ⟨u, rfl, hreg, -, -⟩ := h
  have hmatch : u.checkAlarms.alarmMatch (n + 1) = u.alarmMatch (n + 1) :=
    State.alarmMatch_congr (s := u) (t := u.checkAlarms) (fun a ha => by rw [State.checkAlarms_reg, if_neg ha]) rfl (by omega)
  rw [State.checkAlarms_reg, if_pos rfl, hreg 30 (by decide), BitVec.getLsbD_or, u.getLsbD_alarmMatches (j := n) (by omega), hmatch,
    decide_eq_true hn, Bool.true_and]

/-- Settles O16: the operation ends in the comparator, whose result is read bit by bit. -/
theorem minuteBoundaryLatchesMatchingAlarms : Obligations.MinuteBoundaryLatchesMatchingAlarms := by
  intro s hsec hdomain
  have hends := State.endsInComparator_of_minute hsec hdomain
  have hframe : s.CalFrame (s.stage 0) := State.calFrame_timeInc s
  have hconf : (s.stage 0).conf = s.conf := by
    obtain ⟨⟨m, l, f, k, heq⟩, -, -⟩ := hframe
    rw [heq]
  have hmark : (s.stage 0).marked = s.marked := by
    obtain ⟨u, heq, -, -, hmark⟩ := hends
    rw [heq, State.checkAlarms_marked, hmark]
  refine ⟨s.stage 0, exec_actTimeInc s, ?_, hmark, s.latchFrame_timeInc.masks.2, fun n hlo hhi => ?_⟩
  · rw [State.stage_second_of_last hsec, State.stage_reg_of_lt _ (by decide) (by decide), State.reg_setReg, if_pos rfl]
  · intro base dow mask
    have hflag := hends.flag (n := n - 1) (by omega)
    rw [Nat.sub_add_cancel hlo] at hflag
    have hreg : ∀ k < 3, (s.stage 0).reg (8 + 3 * (n - 1) + k) = s.reg (base + k) := fun k hk =>
      hframe.2.1 _ (by omega) (by omega)
    rw [hflag, Bool.or_eq_true, State.alarmMatch_iff, hconf]
    have h0 : (s.stage 0).reg (8 + 3 * (n - 1)) = s.reg base := hreg 0 (by decide)
    rw [h0, hreg 1 (by decide), hreg 2 (by decide)]
    rfl

end Sys2Proof.Machine

/-! ### The bus port: stores and reads (44_bus_port.md R136 to R151) -/

namespace Sys2Proof.Machine

section Writes

variable {s : State} (b : Byte)

/-- Rows of the operation WR answer what BUS_WRITE does. -/
theorem exec_of_isWrite {i : Instr} (h : i.op = .write b) {t : State} (ht : s.busWrite b = t) : exec i s = .next t := by
  rw [exec_eq, h, ← ht]; rfl

/-- Settles O25: the three classes store the byte at `OFFSET`. -/
theorem plainWritesStoreTheByte : Obligations.PlainWritesStoreTheByte := by
  intro s b
  refine ⟨s.mem.write s.offset.toNat b, Memory.read_write _ _ _, fun h => ?_, fun ⟨hlo, hhi⟩ => ?_, fun h => ?_⟩
  · have hwrite := State.busWrite_of_time b h
    exact ⟨exec_of_isWrite b rfl hwrite, exec_of_isWrite b rfl hwrite⟩
  · have hwrite := State.busWrite_of_alarm b hlo hhi
    exact ⟨exec_of_isWrite b rfl hwrite, exec_of_isWrite b rfl hwrite⟩
  · have hwrite := State.busWrite_of_aie b h
    exact ⟨exec_of_isWrite b rfl hwrite, exec_of_isWrite b rfl hwrite⟩

/-- Settles O26: the recompute reads the new year, and its rule is the Gregorian one. -/
theorem yearWriteRecomputesLeap : Obligations.YearWriteRecomputesLeap := by
  intro s b hoffset year cent valid
  obtain ⟨hlo, hhi⟩ : 6 ≤ s.offset.toNat ∧ s.offset.toNat ≤ 7 := by
    obtain h | h := hoffset <;> rw [h] <;> decide
  have hyear : (s.storeAtOffset b).reg 6 = year := by
    obtain h | h := hoffset <;> simp [State.storeAtOffset, year, h]
  have hcent : (s.storeAtOffset b).reg 7 = cent := by
    obtain h | h := hoffset <;> simp [State.storeAtOffset, cent, h]
  have hvalid : (isBcd cent && isBcd year) = valid := Bool.and_comm _ _
  have hwrite := State.busWrite_of_year b hlo hhi
  rw [State.checkLeapYear_eq, hyear, hcent, isLeap_eq_leapYear, hvalid] at hwrite
  exact ⟨s.mem.write s.offset.toNat b, Memory.read_write _ _ _, exec_of_isWrite b rfl hwrite, exec_of_isWrite b rfl hwrite⟩

/-- The three bits of CFG are three different bits (00_scope.md R5). -/
theorem Config.wf_iff {c : Config} :
    c.wf = true ↔ c.dedBit.val ≠ c.convBit.val ∧ c.dedBit.val ≠ c.rdyBit.val ∧ c.convBit.val ≠ c.rdyBit.val := by
  simp [Config.wf, Fin.ext_iff, and_assoc]

/-- Settles O28, from the guard of CFG bit by bit. -/
theorem configWriteCannotSetReady : Obligations.ConfigWriteCannotSetReady := by
  intro s b hoffset
  have hnext : s.offset + 1 = 29 := by rw [hoffset]; rfl
  have hread := Memory.read_write s.mem 28 (cfgGuard s.conf (s.reg 28) b)
  have h28 : (s.mem.write 28 (cfgGuard s.conf (s.reg 28) b)).read 28 = cfgGuard s.conf (s.reg 28) b :=
    (hread 28).trans (if_pos rfl)
  have hwrite : s.busWrite b = { s with
      mem := s.mem.write 28 (cfgGuard s.conf (s.reg 28) b), offset := 29, status := some true } := by
    rw [← hnext]; exact State.busWrite_of_cfg b (by rw [hoffset]; rfl)
  refine ⟨_, exec_of_isWrite b rfl hwrite, exec_of_isWrite b rfl hwrite, fun a ha => (hread a).trans (if_neg ha),
    fun j _ => ?_, fun hwf => ?_⟩
  · rw [h28, getLsbD_cfgGuard]
  · obtain ⟨-, -, hne⟩ := Config.wf_iff.mp hwf
    change ((s.mem.write 28 (cfgGuard s.conf (s.reg 28) b)).read 28).getLsbD s.conf.convBit = _
    rw [h28, getLsbD_cfgGuard, if_neg hne]

/-- Settles O29, from the guard of AIF bit by bit. -/
theorem flagWriteOnlyClears : Obligations.FlagWriteOnlyClears := by
  intro s b hoffset
  have hnext : s.offset + 1 = 31 := by rw [hoffset]; rfl
  have hread := Memory.read_write s.mem 30 (aifGuard (s.reg 30) b)
  have hwrite : s.busWrite b = { s with
      mem := s.mem.write 30 (aifGuard (s.reg 30) b), offset := 31, status := some true } := by
    rw [← hnext]; exact State.busWrite_of_aif b (by rw [hoffset]; rfl)
  refine ⟨_, exec_of_isWrite b rfl hwrite, exec_of_isWrite b rfl hwrite, fun a ha => (hread a).trans (if_neg ha),
    fun j hj => ?_⟩
  rw [hread, if_pos rfl, getLsbD_aifGuard _ _ j hj]

end Writes

section Reads

variable {s : State}

/-- Rows of the operation RD answer what BUS_READ does. -/
theorem exec_of_isRead {i : Instr} (h : i.op = .read) {t : State} (ht : s.busRead = t) : exec i s = .next t := by
  rw [exec_eq, h, ← ht]; rfl

/-- Settles O30: where no register is, an access is the end of an access. -/
theorem offsetsWithoutRegister : Obligations.OffsetsWithoutRegister := by
  intro s b h
  have hwrite := State.busWrite_of_oor b h
  have hread := State.busRead_of_oor h
  exact ⟨exec_of_isWrite b rfl hwrite, exec_of_isWrite b rfl hwrite, exec_of_isRead rfl hread, exec_of_isRead rfl hread⟩

/-- Settles O34: with the record clear the read of 27 has no side effect, with the record set it clears two bits. -/
theorem lowByteReadReleasesAfterHigh : Obligations.LowByteReadReleasesAfterHigh := by
  intro s hoffset
  have hnext : s.offset + 1 = 28 := by rw [hoffset]; rfl
  have hread := State.busRead_of_templ (s := s) (by rw [hoffset]; rfl)
  rw [State.releaseResult] at hread
  refine ⟨fun hrecord => ?_, fun hrecord => ⟨s.mem.write 28 (s.reg 28 &&& ~~~(1#8 <<< s.conf.rdyBit.val)),
    Memory.read_write _ _ _, ?_⟩⟩
  · rw [if_neg (by simp [hrecord])] at hread
    rw [← hnext]
    exact ⟨exec_of_isRead rfl hread, exec_of_isRead rfl hread⟩
  · rw [if_pos hrecord] at hread
    rw [← hnext]
    exact ⟨exec_of_isRead rfl hread, exec_of_isRead rfl hread⟩

end Reads

/-! #### A complete read of a result (R129, R184) -/

theorem execAll_cons {i : Instr} {s t : State} (h : exec i s = .next t) (l : List Instr) :
    execAll (i :: l) s = execAll l t := by
  simp only [execAll, h]

theorem State.rdy_eq_false_of_cleared {s : State} {b : Byte} (h : s.reg 28 = b &&& ~~~(1#8 <<< s.conf.rdyBit.val)) :
    s.rdy = false := by
  rw [State.rdy, h]; simp

/-- Settles O23, by the reads of 26 and 27. -/
theorem highThenLowReadReleasesTheResult : Obligations.HighThenLowReadReleasesTheResult := by
  intro s
  have hhigh := (highByteReadSetsTheRecord { s with offset := 26 } rfl).1
  refine ⟨⟨{ s with highRead := true, offset := 27, dout := some (s.reg 26) }, ?_, rfl, rfl, rfl, rfl⟩, ?_,
    fun hrecord => ⟨{ s with offset := 28, dout := some (s.reg 27) }, ?_, rfl, rfl, hrecord⟩⟩
  · rw [execAll_cons (exec_setoff 26 s), execAll_cons hhigh]; rfl
  · obtain ⟨m, hm, hlow, -⟩ := (lowByteReadReleasesAfterHigh
      { s with highRead := true, offset := 27, dout := some (s.reg 26) } rfl).2 rfl
    refine ⟨{ s with mem := m, highRead := false, offset := 28, dout := some (s.reg 27) }, ?_, rfl, ?_, rfl, rfl,
      fun a ha => (hm a).trans (if_neg ha)⟩
    · rw [execAll_cons (exec_setoff 26 s), execAll_cons hhigh]
      exact execAll_cons hlow []
    · exact State.rdy_eq_false_of_cleared ((hm 28).trans (if_pos rfl))
  · obtain ⟨hlow, -⟩ := (lowByteReadReleasesAfterHigh { s with offset := 27 } rfl).1 hrecord
    rw [execAll_cons (exec_setoff 27 s), execAll_cons hlow]; rfl

/-! #### A burst of reads (R146, R151) -/

/-- What one read does to the register file and to `dout`, at any offset. -/
theorem State.busRead_spec (s : State) :
    s.busRead.offset = s.offset + 1 ∧ s.busRead.inputs = s.inputs ∧ (∀ a, a ≠ 28 → s.busRead.reg a = s.reg a)
      ∧ (s.mem.wf = true → s.busRead.mem.wf = true ∧ s.busRead.dout = some (s.reg s.offset.toNat)) := by
  by_cases h26 : s.offset.toNat = 26
  · rw [State.busRead_of_temph h26, h26]
    exact ⟨rfl, rfl, fun _ _ => rfl, fun h => ⟨h, rfl⟩⟩
  by_cases h27 : s.offset.toNat = 27
  · rw [State.busRead_of_templ h27, h27, State.releaseResult]
    split_ifs
    · refine ⟨rfl, rfl, fun a ha => ?_, fun h => ⟨State.wf_setReg h (by decide) _, rfl⟩⟩
      exact (State.reg_setReg s 28 _ a).trans (if_neg ha)
    · exact ⟨rfl, rfl, fun _ _ => rfl, fun h => ⟨h, rfl⟩⟩
  by_cases h30 : s.offset.toNat ≤ 30
  · rw [State.busRead_of_plain (by omega)]
    exact ⟨rfl, rfl, fun _ _ => rfl, fun h => ⟨h, rfl⟩⟩
  · rw [State.busRead_of_oor (by omega)]
    refine ⟨rfl, rfl, fun _ _ => rfl, fun h => ⟨h, ?_⟩⟩
    rw [State.finishRead_dout, State.reg, Memory.read_of_no_register h (by omega)]

/-- Settles O36, by induction on the length of the burst. -/
theorem burstReadReturnsSuccessiveRegisters : Obligations.BurstReadReturnsSuccessiveRegisters := by
  intro k
  induction k with
  | zero =>
    intro s rest hwf hinputs
    have hstep := step_of_event (i := .rd) rfl hinputs
    obtain ⟨hoffset, hrest, hreg, hread⟩ := s.begin.busRead_spec
    refine ⟨s.begin.busRead, (run_succ hstep 0).trans rfl, ?_, hoffset, hreg, fun _ => ?_⟩
    · rw [hrest, State.begin_of_cons hinputs]; rfl
    · rw [(hread hwf).2, show s.offset + BitVec.ofNat 8 0 = s.offset from BitVec.add_zero _]; rfl
  | succ k ih =>
    intro s rest hwf hinputs
    have hstep := step_of_event (i := .rd) rfl hinputs
    obtain ⟨hoffset, hrest, hreg, hread⟩ := s.begin.busRead_spec
    have hinputs' : s.begin.busRead.inputs = List.replicate (k + 1) (eventInput .rd) ++ rest := by
      rw [hrest, State.begin_of_cons hinputs]; rfl
    obtain ⟨t, hrun, hrest', hoffset', hreg', hdout⟩ := ih s.begin.busRead rest (hread hwf).1 hinputs'
    have hadd : ∀ n, s.begin.busRead.offset + BitVec.ofNat 8 n = s.offset + BitVec.ofNat 8 (n + 1) := fun n => by
      rw [hoffset, BitVec.ofNat_add, BitVec.add_assoc, BitVec.add_comm (BitVec.ofNat 8 n)]; rfl
    rw [hadd] at hoffset' hdout
    refine ⟨t, (run_succ hstep (k + 1)).trans hrun, hrest', hoffset', fun a ha => (hreg' a ha).trans (hreg a ha),
      fun hne => ?_⟩
    rw [hdout hne, hreg _ fun h => hne (BitVec.eq_of_toNat_eq h)]
    rfl

end Sys2Proof.Machine

/-! ### Alarm routing, test outputs and the temperature handshake -/

namespace Sys2Proof.Machine

/-! #### ACT_ALARM_INT (42_alarm.md R111, R112) -/

theorem flags_ne_zero_iff : ∀ b : Byte, decide (b &&& 0x3F ≠ 0) =
    (b.getLsbD 0 || b.getLsbD 1 || b.getLsbD 2 || b.getLsbD 3 || b.getLsbD 4 || b.getLsbD 5) := by decide

theorem State.getLsbD_fired (s : State) {j : Nat} (hj : j < 6) :
    s.fired.getLsbD j = ((s.reg 30).getLsbD j && (s.reg 29).getLsbD j) := by
  rw [State.fired, BitVec.getLsbD_and, BitVec.getLsbD_and, getLsbD_flagMask j (by omega), decide_eq_true hj, Bool.and_true]

/-- Settles O13: the fired alarms bit by bit, and the gate in each of its four settings. -/
theorem alarmRoutingAssertsOutputs : Obligations.AlarmRoutingAssertsOutputs := by
  intro s fired ded mode gate
  have hgate : s.dedGate = gate := by
    simp only [gate, State.dedGate]
    cases s.conf.dedGate <;> rfl
  have hany : decide (s.fired ≠ 0) = (fired 0 || fired 1 || fired 2 || fired 3 || fired 4 || fired 5) := by
    rw [State.fired, flags_ne_zero_iff]
    simp only [BitVec.getLsbD_and, fired]
  rw [exec_eq]
  refine congrArg Host.Outcome.next ?_
  simp only [Instr.op, Op.run, State.perform, State.actAlarmInt, hany, hgate, Bool.or_assoc,
    s.getLsbD_fired (j := 0) (by decide), s.getLsbD_fired (j := 1) (by decide), s.getLsbD_fired (j := 2) (by decide), fired]

/-- Settles O15: only what ACT_ALARM_INT does to the latches can raise one. -/
theorem alarmOutputsNeedALatchedEnabledAlarm : Obligations.AlarmOutputsNeedALatchedEnabledAlarm := by
  intro i s t h
  obtain hkept | ⟨hperforms, hint⟩ | ⟨-, hcleared⟩ := exec_alarmLatches_cases h
  · obtain ⟨hU, h1, h2, h3⟩ := State.alarmLatches_eq_iff.mp hkept
    rw [hU, h1, h2, h3]
    simp +contextual
  · obtain ⟨hU, h1, h2, h3⟩ := State.alarmLatches_eq_iff.mp hint
    rw [hU, h1, h2, h3]
    have hbit : ∀ j < 6, s.fired.getLsbD j = (s.reg 30 &&& s.reg 29).getLsbD j := fun j hj => by
      rw [s.getLsbD_fired hj, BitVec.getLsbD_and]
    refine ⟨fun h0 h1 => ⟨hperforms, ?_⟩, fun h0 h1 => ⟨hperforms, ?_⟩, fun h0 h1 => ⟨hperforms, ?_⟩,
      fun h0 h1 => ⟨hperforms, ?_⟩⟩
    · have hany : s.fired ≠ 0 := of_decide_eq_true (by simpa only [State.actAlarmInt, h0, Bool.false_or] using h1)
      exact hany
    · rw [← hbit 0 (by decide)]; exact (by simpa [State.actAlarmInt, h0] using h1 : _ ∧ _).1
    · rw [← hbit 1 (by decide)]; exact (by simpa [State.actAlarmInt, h0] using h1 : _ ∧ _).1
    · rw [← hbit 2 (by decide)]; exact (by simpa [State.actAlarmInt, h0] using h1 : _ ∧ _).1
  · obtain ⟨hU, h1, h2, h3⟩ := State.alarmLatches_eq_iff.mp hcleared
    rw [hU, h1, h2, h3]
    simp

/-! #### Outputs (43_outputs_temperature.md R120, R121, R124 to R127) -/

/-- Settles O18: each is one update of the state. -/
theorem toggleAndDiagResults : Obligations.ToggleAndDiagResults := fun _ => ⟨rfl, rfl⟩

theorem State.actTempAssert_eq (s : State) : s.actTempAssert = { s with trdyOut := s.trdyOut || s.rdy } := by
  unfold State.actTempAssert
  cases h : s.rdy <;> simp

/-- Settles O20: the request bit is cleared where it is set, and nothing is done where it is not. -/
theorem conversionStartPulsesAndClearsRequest : Obligations.ConversionStartPulsesAndClearsRequest := by
  intro s
  refine ⟨fun hconv => ⟨s.mem.write 28 (s.reg 28 &&& ~~~(1#8 <<< s.conf.convBit.val)), ?_, Memory.read_write _ _ _⟩,
    fun hconv => ?_⟩
  · exact congrArg Host.Outcome.next (if_pos hconv)
  · exact congrArg Host.Outcome.next (if_neg (ne_true_of_eq_false hconv))

theorem State.spendRaw_eq (s : State) :
    s.spendRaw = { s with freeCount := if s.adcRaw = none then s.freeCount + 1 else s.freeCount } := by
  unfold State.spendRaw
  split
  · next h => rw [if_neg (by simp [h])]
  · next h => rw [if_pos h]; rfl

/-- ACT_CONV_DONE as one update (R127). -/
theorem State.convDone_eq (s : State) :
    s.convDone = { s with
      mem := ((s.mem.write 26 (s.rawResult.extractLsb' 8 8)).write 27 (s.rawResult.extractLsb' 0 8)).write 28
        (s.reg 28 ||| (1#8 <<< s.conf.rdyBit.val))
      freeCount := if s.adcRaw = none then s.freeCount + 1 else s.freeCount } := by
  have hcfg : ((s.spendRaw.setReg 26 (s.rawResult.extractLsb' 8 8)).setReg 27 (s.rawResult.extractLsb' 0 8)).reg 28
      = s.reg 28 := by
    rw [State.reg_setReg, if_neg (by decide), State.reg_setReg, if_neg (by decide), State.spendRaw_eq]; rfl
  rw [State.convDone, State.setRdy, hcfg, State.spendRaw_eq]
  rfl

theorem State.convDone_reg (s : State) (a : Nat) :
    s.convDone.reg a =
      if a = 26 then s.rawResult.extractLsb' 8 8 else if a = 27 then s.rawResult.extractLsb' 0 8
      else if a = 28 then s.reg 28 ||| (1#8 <<< s.conf.rdyBit.val) else s.reg a := by
  rw [State.convDone_eq, State.reg, Memory.read_write, Memory.read_write, Memory.read_write]
  split_ifs <;> first | rfl | omega

/-- Settles O21: two stores and the ready bit. -/
theorem conversionResultIsStored : Obligations.ConversionResultIsStored := by
  refine fun s => ⟨s.convDone.mem, ?_, s.convDone_reg⟩
  rw [exec_eq]
  refine congrArg Host.Outcome.next ?_
  change s.convDone = _
  rw [State.convDone_eq]

/-! ### The invariant at reset, and the one canonical register file -/

/-- Settles O52, on the reset state. -/
theorem invariantAtReset : Obligations.InvariantAtReset := by
  unfold Obligations.InvariantAtReset
  decide

/-- Two canonical files with different first offsets differ in what they read there. -/
theorem Memory.fst_le_of_read_eq {lo lo' : Nat} {k k' : Nat} {v v' : Byte} {t t' : Memory}
    (h : Memory.wfFrom lo ((k, v) :: t) = true) (h' : Memory.wfFrom lo' ((k', v') :: t') = true)
    (hread : ∀ a, Memory.read ((k, v) :: t) a = Memory.read ((k', v') :: t') a) : k' ≤ k := by
  by_contra hlt
  rw [Memory.wfFrom_cons] at h h'
  have hl : Memory.read ((k, v) :: t) k = v := by rw [Memory.read_cons, if_pos rfl]
  have hr : Memory.read ((k', v') :: t') k = Memory.unlisted k := by
    rw [Memory.read_cons, if_neg (by omega)]
    exact Memory.read_of_lt_wfFrom h'.2.2.2 (by omega)
  exact h.2.2.1 (by rw [← hl, hread, hr])

theorem Memory.eq_of_read_eq {lo lo' : Nat} {m m' : Memory} (h : Memory.wfFrom lo m = true)
    (h' : Memory.wfFrom lo' m' = true) (hread : ∀ a, m.read a = m'.read a) : m = m' := by
  induction m generalizing lo lo' m' with
  | nil =>
    cases m' with
    | nil => rfl
    | cons c t' =>
      obtain ⟨k', v'⟩ := c
      refine absurd ?_ (Memory.wfFrom_cons.mp h').2.2.1
      have := hread k'
      rw [Memory.read_cons, if_pos rfl] at this
      exact this.symm
  | cons c t ih =>
    obtain ⟨k, v⟩ := c
    cases m' with
    | nil =>
      refine absurd ?_ (Memory.wfFrom_cons.mp h).2.2.1
      have := hread k
      rwa [Memory.read_cons, if_pos rfl] at this
    | cons c' t' =>
      obtain ⟨k', v'⟩ := c'
      obtain rfl : k = k' :=
        le_antisymm (Memory.fst_le_of_read_eq h' h fun a => (hread a).symm) (Memory.fst_le_of_read_eq h h' hread)
      have hv := hread k
      rw [Memory.read_cons, Memory.read_cons, if_pos rfl, if_pos rfl] at hv
      subst hv
      obtain ⟨-, -, -, ht⟩ := Memory.wfFrom_cons.mp h
      obtain ⟨-, -, -, ht'⟩ := Memory.wfFrom_cons.mp h'
      rw [ih ht ht' fun a => ?_]
      by_cases ha : k = a
      · subst ha
        rw [Memory.read_of_lt_wfFrom ht (Nat.lt_succ_self k), Memory.read_of_lt_wfFrom ht' (Nat.lt_succ_self k)]
      · have := hread a
        rwa [Memory.read_cons, Memory.read_cons, if_neg ha, if_neg ha] at this

/-- Settles O54, by induction on the lists: the first offsets agree, and below the rest nothing is listed. -/
theorem canonicalRegisterFileIsUnique : Obligations.CanonicalRegisterFileIsUnique :=
  fun _ _ h h' hread => Memory.eq_of_read_eq h h' hread

end Sys2Proof.Machine

/-! ### What each operation can change (60_exceptions.md R164) -/

namespace Sys2Proof.Machine

/-! #### The shape of the state after an access and after an action -/

/-- A write moves the register file, `LEAP` with its counter, the pointer and the status (44_bus_port.md R136). -/
theorem State.busWrite_frame (s : State) (b : Byte) : ∃ m l n,
    s.busWrite b = { s with mem := m, leap := l, freeCount := n, offset := s.offset + 1, status := some true } := by
  simp only [State.busWrite]
  split_ifs
  case pos => exact ⟨_, _, _, rfl⟩
  case pos => rw [State.checkLeapYear_eq]; exact ⟨_, _, _, rfl⟩
  all_goals exact ⟨_, _, _, rfl⟩

/-- A read moves the register file, the record, the pointer and `dout` (R146). -/
theorem State.busRead_frame (s : State) : ∃ m h v,
    s.busRead = { s with mem := m, highRead := h, offset := s.offset + 1, dout := some v } := by
  simp only [State.busRead, State.releaseResult]
  split_ifs <;> exact ⟨_, _, _, rfl⟩

/-- No action moves the phase, the flags, the pointer, the record, the parameters or the events (R164). -/
theorem State.perform_frame (s : State) (a : Action) : ∃ m l n k u a1 a2 a3 y z p q,
    s.perform a = { s with
      mem := m, leap := l, freeCount := n, marked := k, intU := u, intA1 := a1, intA2 := a2, intA3 := a3, trdyOut := y,
      hzOut := z, adcStart := p, diagReq := q } := by
  cases a with
  | alarmInt | diag | alarmRst | toggle | tempDeassert => exact ⟨_, _, _, _, _, _, _, _, _, _, _, _, rfl⟩
  | tempAssert => exact ⟨_, _, _, _, _, _, _, _, _, _, _, _, s.actTempAssert_eq⟩
  | timeInc =>
    obtain ⟨⟨m, l, n, k, heq⟩, -, -⟩ := State.calFrame_timeInc s
    exact ⟨_, _, _, _, _, _, _, _, _, _, _, _, heq⟩
  | convDone => exact ⟨_, _, _, _, _, _, _, _, _, _, _, _, s.convDone_eq⟩
  | convStart =>
    simp only [State.perform, State.convStart]
    split_ifs <;> exact ⟨_, _, _, _, _, _, _, _, _, _, _, _, rfl⟩

section Frames

variable (s : State) (a : Action)

theorem State.perform_phase : (s.perform a).phase = s.phase := by
  obtain ⟨_, _, _, _, _, _, _, _, _, _, _, _, h⟩ := s.perform_frame a
  rw [h]

theorem State.perform_af : (s.perform a).af = s.af := by
  obtain ⟨_, _, _, _, _, _, _, _, _, _, _, _, h⟩ := s.perform_frame a
  rw [h]

theorem State.perform_offset : (s.perform a).offset = s.offset := by
  obtain ⟨_, _, _, _, _, _, _, _, _, _, _, _, h⟩ := s.perform_frame a
  rw [h]

theorem State.perform_highRead : (s.perform a).highRead = s.highRead := by
  obtain ⟨_, _, _, _, _, _, _, _, _, _, _, _, h⟩ := s.perform_frame a
  rw [h]

theorem State.perform_conf : (s.perform a).conf = s.conf := by
  obtain ⟨_, _, _, _, _, _, _, _, _, _, _, _, h⟩ := s.perform_frame a
  rw [h]

theorem State.resetBlock_eq : s.resetBlock = { State.reset with
    adcRaw := s.adcRaw, dout := s.dout, status := s.status, adcStart := s.adcStart, diagReq := s.diagReq, conf := s.conf,
    inputs := s.inputs, freeCount := s.freeCount } :=
  Host.Outcome.next.inj (resetInstallsEveryElement s)

end Frames

/-! #### Everything an operation can do -/

/-- What the execution of `i` in `s` can answer. An action is performed by its own row or by an FG_STEP, which may have cleared
a flag of `AF` and used a free choice before (40_scheduler.md R70). -/
inductive State.Effect (s : State) (i : Instr) : State → Prop
  | nothing (hop : i.op = .nop ∨ i.op = .fg) : s.Effect i s
  | tick (hop : i.op = .tick) : s.Effect i s.tick
  | adc (hop : i.op = .adc) : s.Effect i (s.setFlag 7)
  | setoff (b : Byte) (hop : i.op = .setoff b) : s.Effect i { s with offset := b }
  | write (b : Byte) (hop : i.op = .write b) : s.Effect i (s.busWrite b)
  | read (hop : i.op = .read) : s.Effect i s.busRead
  | reset (hop : i.op = .reset) : s.Effect i s.resetBlock
  | action (a : Action) (f : Byte) (n : Nat) (hperforms : s.performs i a = true)
      (hsubset : ∀ j, f.getLsbD j = true → s.af.getLsbD j = true) (hflag : f = s.af ∨ i.op = .fg) :
      s.Effect i (({ s with af := f, freeCount := n } : State).perform a)

theorem State.chosen_eq (s : State) (a : Action) : ∃ f n, (∀ j, f.getLsbD j = true → s.af.getLsbD j = true)
    ∧ s.spendChoice.clearFlag a = { s with af := f, freeCount := n } := by
  rw [State.clearFlag_eq, State.spendChoice_eq]
  refine ⟨if a = .convStart then s.af else setBit s.af a.index false, _, fun j => ?_, rfl⟩
  split_ifs
  · exact id
  · rw [getLsbD_setBit]
    split_ifs <;> simp

theorem effect_of_exec {i : Instr} {s t : State} (h : exec i s = .next t) : s.Effect i t := by
  rw [run_of_exec h]
  cases hop : i.op with
  | nop => exact .nothing (.inl hop)
  | tick => exact .tick hop
  | adc => exact .adc hop
  | setoff b => exact .setoff b hop
  | write b => exact .write b hop
  | read => exact .read hop
  | reset => exact .reset hop
  | action a => exact .action a s.af s.freeCount (performs_iff_op.mpr (.inl hop)) (fun _ => id) (.inl rfl)
  | fg =>
    obtain ⟨-, heq⟩ | ⟨a, hchoose, heq⟩ := s.fgStep_cases
    · rw [Op.run, heq]; exact .nothing (.inr hop)
    · obtain ⟨f, n, hsubset, hchosen⟩ := s.chosen_eq a
      rw [Op.run, heq, hchosen]
      exact .action a f n (performs_iff_op.mpr (.inr ⟨hop, hchoose⟩)) hsubset (.inr hop)

/-- Who performs an action does nothing else. -/
theorem op_of_performs {s : State} {i : Instr} {a : Action} (h : s.performs i a = true) : i.op = .action a ∨ i.op = .fg :=
  (performs_iff_op.mp h).imp_right And.left

/-- The state that a performed action answers. -/
theorem exec_of_performs {i : Instr} {s t : State} {a : Action} (hp : s.performs i a = true) (h : exec i s = .next t) :
    ∃ f n, t = ({ s with af := f, freeCount := n } : State).perform a := by
  rw [run_of_exec h]
  obtain hop | ⟨hop, hchoose⟩ := performs_iff_op.mp hp
  · exact ⟨s.af, s.freeCount, by rw [hop]; rfl⟩
  · obtain ⟨f, n, -, hchosen⟩ := s.chosen_eq a
    exact ⟨f, n, by rw [hop, Op.run, State.fgStep_of_choose hchoose, hchosen]⟩

/-! #### The record, the pointer, the scheduler -/

theorem State.busRead_highRead (s : State) :
    s.busRead.highRead = if s.offset = 26 then true else if s.offset = 27 then false else s.highRead := by
  by_cases h26 : s.offset = 26
  · rw [State.busRead_of_temph (by rw [h26]; rfl), if_pos h26]; rfl
  by_cases h27 : s.offset = 27
  · rw [State.busRead_of_templ (by rw [h27]; rfl), if_neg h26, if_pos h27, State.finishRead_highRead, State.releaseResult]
    cases h : s.highRead <;> simp [h]
  have hne26 : s.offset.toNat ≠ 26 := fun h => h26 (BitVec.eq_of_toNat_eq h)
  have hne27 : s.offset.toNat ≠ 27 := fun h => h27 (BitVec.eq_of_toNat_eq h)
  rw [if_neg h26, if_neg h27]
  by_cases h30 : s.offset.toNat ≤ 30
  · rw [State.busRead_of_plain (by omega), State.finishRead_highRead]
  · rw [State.busRead_of_oor (by omega), State.finishRead_highRead]

theorem isRead_eq_false {i : Instr} (h : i.op ≠ .read) : i.isRead = false := by
  rw [← Bool.not_eq_true, isRead_iff]; exact h

theorem ne_reset {i : Instr} (h : i.op ≠ .reset) : i ≠ .reset := mt eq_reset_iff.mp h

/-- Settles O37, over the effects. -/
theorem highReadRecordOwnership : Obligations.HighReadRecordOwnership := by
  intro i s t h
  have hother : i.op ≠ .read → i.op ≠ .reset → t.highRead = s.highRead → t.highRead =
      if i.isRead = true ∧ s.offset = 26 then true
      else if i.isRead = true ∧ s.offset = 27 then false
      else if i = .reset then false else s.highRead := fun hr hs heq => by
    simp [isRead_eq_false hr, ne_reset hs, heq]
  cases effect_of_exec h with
  | nothing hop => exact hother (by obtain h | h := hop <;> simp [h]) (by obtain h | h := hop <;> simp [h]) rfl
  | tick hop => exact hother (by simp [hop]) (by simp [hop]) (by rw [State.tick_eq])
  | adc hop => exact hother (by simp [hop]) (by simp [hop]) rfl
  | setoff b hop => exact hother (by simp [hop]) (by simp [hop]) rfl
  | write b hop =>
    obtain ⟨m, l, n, heq⟩ := s.busWrite_frame b
    exact hother (by simp [hop]) (by simp [hop]) (by rw [heq])
  | read hop => simp [isRead_iff.mpr hop, State.busRead_highRead, ne_reset (i := i) (by simp [hop])]
  | reset hop =>
    obtain rfl := eq_reset_iff.mpr hop
    simp [Instr.isRead, State.resetBlock_eq, State.reset]
  | action a f n hperforms =>
    have hop := op_of_performs hperforms
    exact hother (by obtain h | h := hop <;> simp [h]) (by obtain h | h := hop <;> simp [h]) (State.perform_highRead _ a)

/-- Settles O38, over the effects. -/
theorem pointerOwnership : Obligations.PointerOwnership := by
  intro i s t h
  simp only [isRead_iff, eq_reset_iff, eq_setoff_iff, isWrite_iff, ← Bool.not_eq_true, ne_eq]
  cases effect_of_exec h with
  | nothing hop => obtain hop | hop := hop <;> simp [hop]
  | tick hop => simp [hop, State.tick_eq]
  | adc hop => simp [hop]
  | setoff b hop => simp [hop]
  | write b hop =>
    obtain ⟨m, l, n, heq⟩ := s.busWrite_frame b
    simp [hop, heq]
  | read hop =>
    obtain ⟨m, r, v, heq⟩ := s.busRead_frame
    simp [hop, heq]
  | reset hop => simp [hop, State.resetBlock_eq, State.reset]
  | action a f n hperforms => obtain hop | hop := op_of_performs hperforms <;> simp [hop, State.perform_offset]

end Sys2Proof.Machine

/-! ### The scheduler's part, `LEAP` and the outputs (R164) -/

namespace Sys2Proof.Machine

theorem getLsbD_phaseMask_high (c : Config) (k : Nat) : (phaseMask c k).getLsbD 7 = false := by
  unfold phaseMask
  split
  case h_2 => cases c.diagEn <;> rfl
  all_goals rfl

/-- Settles O39, over the effects. -/
theorem schedulerStateOwnership : Obligations.SchedulerStateOwnership := by
  intro i s t h
  rw [isTick_iff, eq_reset_iff, eq_adc_iff, eq_fg_iff]
  cases effect_of_exec h with
  | nothing hop => simp +contextual
  | setoff b hop => simp +contextual
  | tick hop =>
    have hlt : ∀ n < 8, (s.af ||| phaseMask s.conf s.tickKey).getLsbD n = true → s.af.getLsbD n = false → n < 7 := by
      intro n hn hset hclear
      by_contra hge
      obtain rfl : n = 7 := by omega
      rw [BitVec.getLsbD_or, hclear, getLsbD_phaseMask_high] at hset
      exact Bool.false_ne_true hset
    rw [State.tick_eq]
    refine ⟨rfl, fun _ => .inl hop, fun n hn hclear hset => .inl ⟨hop, hlt n hn hset hclear⟩, fun n hn hset hclear => ?_⟩
    simp [hset] at hclear
  | adc hop =>
    refine ⟨rfl, fun hne => absurd rfl hne, fun n hn hclear hset => .inr ⟨hop, ?_⟩, fun n hn hset hclear => ?_⟩
    · rw [State.setFlag_af, getLsbD_setBit] at hset
      by_contra hne
      rw [if_neg (fun h => hne h.1), hclear] at hset
      exact Bool.false_ne_true hset
    · rw [State.setFlag_af, getLsbD_setBit, hset] at hclear
      simp at hclear
  | write b hop =>
    obtain ⟨m, l, n, heq⟩ := s.busWrite_frame b
    simp +contextual [heq]
  | read hop =>
    obtain ⟨m, r, v, heq⟩ := s.busRead_frame
    simp +contextual [heq]
  | reset hop =>
    rw [State.resetBlock_eq]
    refine ⟨rfl, fun _ => .inr hop, fun n _ _ hset => ?_, fun _ _ _ _ => .inr hop⟩
    simp [State.reset] at hset
  | action a f n hperforms hsubset hflag =>
    rw [State.perform_conf, State.perform_phase, State.perform_af]
    refine ⟨rfl, fun hne => absurd rfl hne, fun j _ hclear hset => ?_, fun j _ hset hclear => .inl ?_⟩
    · rw [hsubset j hset] at hclear
      exact absurd hclear (by decide)
    · obtain rfl | hop := hflag
      · rw [hset] at hclear
        exact absurd hclear (by decide)
      · exact hop

/-! #### `LEAP` (10_state.md R20) -/

theorem State.busWrite_leap {s : State} (h : ¬ (6 ≤ s.offset.toNat ∧ s.offset.toNat ≤ 7)) (b : Byte) :
    (s.busWrite b).leap = s.leap := by
  simp only [State.busWrite]
  split_ifs <;> first | rfl | omega

theorem State.perform_leap {s : State} {a : Action} (h : a ≠ .timeInc) : (s.perform a).leap = s.leap := by
  cases a with
  | timeInc => exact absurd rfl h
  | convDone => simp only [State.perform, State.convDone_eq]
  | tempAssert => simp only [State.perform, State.actTempAssert_eq]
  | convStart => simp only [State.perform, State.convStart]; split_ifs <;> rfl
  | _ => rfl

/-- Settles O41, over the effects. -/
theorem leapIndicatorWriters : Obligations.LeapIndicatorWriters := by
  intro i s t h hne
  cases effect_of_exec h with
  | nothing | adc | setoff => exact absurd rfl hne
  | tick hop => exact absurd (by rw [State.tick_eq]) hne
  | read hop =>
    obtain ⟨m, r, v, heq⟩ := s.busRead_frame
    exact absurd (by rw [heq]) hne
  | reset hop => exact .inr (.inr (eq_reset_iff.mpr hop))
  | write b hop =>
    refine .inr (.inl ⟨?_, b, isWrite_iff.mpr hop⟩)
    by_contra hoffset
    refine hne (State.busWrite_leap (fun hrange => hoffset ?_) b)
    obtain h6 | h7 : s.offset.toNat = 6 ∨ s.offset.toNat = 7 := by omega
    · exact .inl (BitVec.eq_of_toNat_eq h6)
    · exact .inr (BitVec.eq_of_toNat_eq h7)
  | action a f n hperforms =>
    by_cases ha : a = .timeInc
    · exact .inl (ha ▸ hperforms)
    · exact absurd (State.perform_leap ha) hne

/-! #### `TRDY_OUT` (43_outputs_temperature.md R124, R125) -/

theorem State.perform_trdyOut {s : State} {a : Action} (h : a ≠ .tempAssert) (h' : a ≠ .tempDeassert) :
    (s.perform a).trdyOut = s.trdyOut := by
  cases a with
  | tempAssert => exact absurd rfl h
  | tempDeassert => exact absurd rfl h'
  | timeInc =>
    obtain ⟨⟨m, l, n, k, heq⟩, -, -⟩ := State.calFrame_timeInc s
    simp only [State.perform, heq]
  | convDone => simp only [State.perform, State.convDone_eq]
  | convStart => simp only [State.perform, State.convStart]; split_ifs <;> rfl
  | _ => rfl

/-- Settles O19: the two actions as updates, and every other effect without the output. -/
theorem temperatureReadyOutput : Obligations.TemperatureReadyOutput := by
  refine ⟨fun s => ⟨congrArg Host.Outcome.next s.actTempAssert_eq, rfl⟩, fun i s t h hne => ?_⟩
  cases effect_of_exec h with
  | nothing | adc | setoff => exact absurd rfl hne
  | tick hop => exact absurd (by rw [State.tick_eq]) hne
  | read hop =>
    obtain ⟨m, r, v, heq⟩ := s.busRead_frame
    exact absurd (by rw [heq]) hne
  | write b hop =>
    obtain ⟨m, l, n, heq⟩ := s.busWrite_frame b
    exact absurd (by rw [heq]) hne
  | reset hop => exact .inr (.inr (eq_reset_iff.mpr hop))
  | action a f n hperforms =>
    by_cases hassert : a = .tempAssert
    · exact .inl (hassert ▸ hperforms)
    by_cases hdeassert : a = .tempDeassert
    · exact .inr (.inl (hdeassert ▸ hperforms))
    · exact absurd (State.perform_trdyOut hassert hdeassert) hne

end Sys2Proof.Machine

/-! ### The register file: who writes what (20_memory.md R31, 60_exceptions.md R164) -/

namespace Sys2Proof.Machine

/-! #### The registers after each operation -/

/-- What a BUS_WRITE of byte `b` at offset `a` leaves there (44_bus_port.md R137 to R144). -/
def State.writeValue (s : State) (a : Nat) (b : Byte) : Byte :=
  if a = 26 ∨ a = 27 ∨ 31 ≤ a then s.reg a
  else if a = 28 then cfgGuard s.conf (s.reg 28) b
  else if a = 30 then aifGuard (s.reg 30) b
  else b

theorem State.writeValue_of_plain (s : State) {a : Nat} (h : a ≤ 25 ∨ a = 29) (b : Byte) : s.writeValue a b = b := by
  rw [State.writeValue, if_neg (by omega), if_neg (by omega), if_neg (by omega)]

theorem State.writeValue_of_ignored (s : State) {a : Nat} (h : a = 26 ∨ a = 27 ∨ 31 ≤ a) (b : Byte) :
    s.writeValue a b = s.reg a := if_pos h

/-- Everything a BUS_WRITE does to a read of the register file. -/
theorem State.busWrite_reg (s : State) (b : Byte) (a : Nat) :
    (s.busWrite b).reg a = if a = s.offset.toNat then s.writeValue a b else s.reg a := by
  have stored : ∀ {v : Byte}, s.writeValue s.offset.toNat b = v →
      (s.setReg s.offset.toNat v).reg a = if a = s.offset.toNat then s.writeValue a b else s.reg a := fun hv => by
    rw [State.reg_setReg]
    split_ifs with ha
    · rw [ha, hv]
    · rfl
  have ignored : (s.offset.toNat = 26 ∨ s.offset.toNat = 27 ∨ 31 ≤ s.offset.toNat) →
      s.reg a = if a = s.offset.toNat then s.writeValue a b else s.reg a := fun h => by
    split_ifs with ha
    · rw [ha, s.writeValue_of_ignored h]
    · rfl
  rcases (by omega : s.offset.toNat ≤ 5 ∨ (6 ≤ s.offset.toNat ∧ s.offset.toNat ≤ 7)
    ∨ (8 ≤ s.offset.toNat ∧ s.offset.toNat ≤ 25) ∨ (26 ≤ s.offset.toNat ∧ s.offset.toNat ≤ 27)
    ∨ s.offset.toNat = 28 ∨ s.offset.toNat = 29 ∨ s.offset.toNat = 30 ∨ 31 ≤ s.offset.toNat)
    with h | ⟨hlo, hhi⟩ | ⟨hlo, hhi⟩ | ⟨hlo, hhi⟩ | h | h | h | h
  · rw [State.busWrite_of_time b h]
    exact stored (s.writeValue_of_plain (by omega) b)
  · rw [State.busWrite_of_year b hlo hhi]
    exact ((s.storeAtOffset b).checkLeapYear_reg a).trans (stored (s.writeValue_of_plain (by omega) b))
  · rw [State.busWrite_of_alarm b hlo hhi]
    exact stored (s.writeValue_of_plain (by omega) b)
  · rw [State.busWrite_of_temp b hlo hhi]
    exact ignored (by omega)
  · rw [State.busWrite_of_cfg b h]
    rw [h] at stored ⊢
    exact stored rfl
  · rw [State.busWrite_of_aie b h]
    exact stored (s.writeValue_of_plain (by omega) b)
  · rw [State.busWrite_of_aif b h]
    rw [h] at stored ⊢
    exact stored rfl
  · rw [State.busWrite_of_oor b h]
    exact ignored (by omega)

/-- Everything a BUS_READ does to the register file: the read of 27 with the record set clears `RDY` (R149). -/
theorem State.busRead_reg (s : State) (a : Nat) :
    s.busRead.reg a =
      if a = 28 ∧ s.offset = 27 ∧ s.highRead = true then setBit (s.reg 28) s.conf.rdyBit false else s.reg a := by
  by_cases h27 : s.offset = 27
  · rw [State.busRead_of_templ (by rw [h27]; rfl), State.releaseResult]
    split_ifs with hrecord ha ha
    · exact (State.reg_setReg s 28 _ a).trans (if_pos ha.1)
    · exact (State.reg_setReg s 28 _ a).trans (if_neg fun h => ha ⟨h, h27, hrecord⟩)
    · exact absurd ha.2.2 hrecord
    · rfl
  · have hne : s.offset.toNat ≠ 27 := fun h => h27 (BitVec.eq_of_toNat_eq h)
    rw [if_neg fun h => h27 h.2.1]
    by_cases h26 : s.offset.toNat = 26
    · rw [State.busRead_of_temph h26]; rfl
    by_cases h30 : s.offset.toNat ≤ 30
    · rw [State.busRead_of_plain (by omega)]; rfl
    · rw [State.busRead_of_oor (by omega)]; rfl

theorem State.convStart_reg (s : State) (a : Nat) :
    s.convStart.reg a = if a = 28 ∧ s.conv = true then setBit (s.reg 28) s.conf.convBit false else s.reg a := by
  rw [State.convStart]
  split_ifs with hconv ha ha
  · exact (State.reg_setReg s 28 _ a).trans (if_pos ha.1)
  · exact (State.reg_setReg s 28 _ a).trans (if_neg fun h => ha ⟨h, hconv⟩)
  · exact absurd ha.2 hconv
  · rfl

/-- Everything an operation can do to the register file. -/
inductive State.RegEffect (s : State) (i : Instr) (t : State) : Prop
  | kept (hreg : ∀ a, t.reg a = s.reg a)
  | written (b : Byte) (hwrite : i.isWrite b = true)
      (hreg : ∀ a, t.reg a = if a = s.offset.toNat then s.writeValue a b else s.reg a)
  | released (hread : i.isRead = true) (hoffset : s.offset = 27) (hrecord : s.highRead = true)
      (hreg : ∀ a, t.reg a = if a = 28 then setBit (s.reg 28) s.conf.rdyBit false else s.reg a)
  | incremented (hperforms : s.performs i .timeInc = true) (hreg : ∀ a, 8 ≤ a → a ≠ 30 → t.reg a = s.reg a)
      (hlatch : s.LatchFrame t)
  | converted (hperforms : s.performs i .convDone = true)
      (hreg : ∀ a, a ≠ 26 → a ≠ 27 → t.reg a = if a = 28 then setBit (s.reg 28) s.conf.rdyBit true else s.reg a)
  | started (hperforms : s.performs i .convStart = true) (hconv : s.conv = true)
      (hreg : ∀ a, t.reg a = if a = 28 then setBit (s.reg 28) s.conf.convBit false else s.reg a)
  | reset (hi : i = .reset)

theorem regEffect_of_exec {i : Instr} {s t : State} (h : exec i s = .next t) : s.RegEffect i t := by
  cases effect_of_exec h with
  | nothing | adc | setoff => exact .kept fun _ => rfl
  | tick => exact .kept fun a => by rw [State.tick_eq]; rfl
  | write b hop => exact .written b (isWrite_iff.mpr hop) (s.busWrite_reg b)
  | reset hop => exact .reset (eq_reset_iff.mpr hop)
  | read hop =>
    by_cases hrelease : s.offset = 27 ∧ s.highRead = true
    · exact .released (isRead_iff.mpr hop) hrelease.1 hrelease.2 fun a => by simp [State.busRead_reg, hrelease]
    · exact .kept fun a => by rw [State.busRead_reg, if_neg fun h => hrelease h.2]
  | action a f n hperforms =>
    cases a with
    | timeInc =>
      exact .incremented hperforms (State.calFrame_timeInc { s with af := f, freeCount := n }).2.1
        (State.latchFrame_timeInc { s with af := f, freeCount := n })
    | convDone =>
      refine .converted hperforms fun a h26 h27 => ?_
      exact (State.convDone_reg _ a).trans (by rw [if_neg h26, if_neg h27]; rfl)
    | convStart =>
      by_cases hconv : s.conv = true
      · refine .started hperforms hconv fun a => ?_
        exact (State.convStart_reg _ a).trans (if_congr (and_iff_left hconv) rfl rfl)
      · refine .kept fun a => ?_
        exact (State.convStart_reg _ a).trans (if_neg fun h => hconv h.2)
    | tempAssert => exact .kept fun a => by rw [State.perform, State.actTempAssert_eq]; rfl
    | _ => exact .kept fun _ => rfl

/-! #### CFG and AIF -/

/-- What can become of AIF (R31; 42_alarm.md R106, 44_bus_port.md R143). -/
theorem State.RegEffect.aif {i : Instr} {s t : State} (h : s.RegEffect i t) :
    t.reg 30 = s.reg 30
      ∨ (s.offset = 30 ∧ ∃ b, i.isWrite b = true ∧ t.reg 30 = aifGuard (s.reg 30) b)
      ∨ (s.performs i .timeInc = true ∧ s.LatchFrame t) ∨ i = .reset := by
  cases h with
  | kept hreg => exact .inl (hreg 30)
  | written b hwrite hreg =>
    by_cases hoffset : s.offset.toNat = 30
    · exact .inr (.inl ⟨BitVec.eq_of_toNat_eq hoffset, b, hwrite, (hreg 30).trans (if_pos hoffset.symm)⟩)
    · exact .inl ((hreg 30).trans (if_neg fun h => hoffset h.symm))
  | released _ _ _ hreg => exact .inl (hreg 30)
  | incremented hperforms _ hlatch => exact .inr (.inr (.inl ⟨hperforms, hlatch⟩))
  | converted _ hreg => exact .inl (hreg 30 (by decide) (by decide))
  | started _ _ hreg => exact .inl (hreg 30)
  | reset hi => exact .inr (.inr (.inr hi))

/-- What can become of CFG (R31; 43_outputs_temperature.md R126 to R128, 44_bus_port.md R141, R149). -/
inductive State.CfgEffect (s : State) (i : Instr) (t : State) : Prop
  | kept (hcfg : t.reg 28 = s.reg 28)
  | written (b : Byte) (hwrite : i.isWrite b = true) (hoffset : s.offset = 28)
      (hcfg : t.reg 28 = cfgGuard s.conf (s.reg 28) b)
  | released (hread : i.isRead = true) (hoffset : s.offset = 27) (hrecord : s.highRead = true)
      (hcfg : t.reg 28 = setBit (s.reg 28) s.conf.rdyBit false)
  | converted (hperforms : s.performs i .convDone = true) (hcfg : t.reg 28 = setBit (s.reg 28) s.conf.rdyBit true)
  | started (hperforms : s.performs i .convStart = true) (hcfg : t.reg 28 = setBit (s.reg 28) s.conf.convBit false)
  | reset (hi : i = .reset)

theorem State.RegEffect.cfg {i : Instr} {s t : State} (h : s.RegEffect i t) : s.CfgEffect i t := by
  cases h with
  | kept hreg => exact .kept (hreg 28)
  | written b hwrite hreg =>
    by_cases hoffset : s.offset.toNat = 28
    · exact .written b hwrite (BitVec.eq_of_toNat_eq hoffset) ((hreg 28).trans (if_pos hoffset.symm))
    · exact .kept ((hreg 28).trans (if_neg fun h => hoffset h.symm))
  | released hread hoffset hrecord hreg => exact .released hread hoffset hrecord (hreg 28)
  | incremented _ hreg => exact .kept (hreg 28 (by decide) (by decide))
  | converted hperforms hreg => exact .converted hperforms (hreg 28 (by decide) (by decide))
  | started hperforms _ hreg => exact .started hperforms (hreg 28)
  | reset hi => exact .reset hi

theorem conf_of_exec {i : Instr} {s t : State} (h : exec i s = .next t) : t.conf = s.conf :=
  (schedulerStateOwnership i s t h).1

theorem State.rdy_of_exec {i : Instr} {s t : State} (h : exec i s = .next t) :
    t.rdy = (t.reg 28).getLsbD s.conf.rdyBit := by
  rw [State.rdy, conf_of_exec h]

theorem State.conv_of_exec {i : Instr} {s t : State} (h : exec i s = .next t) :
    t.conv = (t.reg 28).getLsbD s.conf.convBit := by
  rw [State.conv, conf_of_exec h]

/-- Settles O22, over what can become of CFG. -/
theorem readyBitStateMachine : Obligations.ReadyBitStateMachine := by
  intro i s t hwf h
  obtain ⟨-, -, hne⟩ := Config.wf_iff.mp hwf
  rw [State.rdy_of_exec h]
  refine ⟨fun hperforms => ?_, fun b hwrite hoffset => ?_, fun hread hoffset => ?_, fun hdone hwrite hread hreset => ?_⟩
  · obtain ⟨f, n, rfl⟩ := exec_of_performs hperforms h
    have hcfg : (({ s with af := f, freeCount := n } : State).perform .convDone).reg 28
        = setBit (s.reg 28) s.conf.rdyBit true := State.convDone_reg _ 28
    rw [hcfg, getLsbD_setBit, if_pos ⟨rfl, s.conf.rdyBit.isLt⟩]
  · obtain rfl : t = s.busWrite b := by rw [run_of_exec h, isWrite_iff.mp hwrite]; rfl
    have hcfg : (s.busWrite b).reg 28 = cfgGuard s.conf (s.reg 28) b := by rw [State.busWrite_reg, hoffset]; rfl
    rw [hcfg, getLsbD_cfgGuard, if_pos rfl]; rfl
  · obtain rfl : t = s.busRead := by rw [run_of_exec h, isRead_iff.mp hread]; rfl
    rw [State.busRead_reg]
    cases hrecord : s.highRead with
    | true =>
      rw [if_pos ⟨rfl, hoffset, rfl⟩, getLsbD_setBit, if_pos ⟨rfl, s.conf.rdyBit.isLt⟩]; simp
    | false => rw [if_neg (by simp)]; simp [State.rdy]
  · cases (regEffect_of_exec h).cfg with
    | kept hcfg => rw [hcfg]; rfl
    | written b hw hoffset => exact absurd hoffset (hwrite b hw)
    | released hr hoffset => exact absurd hoffset (hread hr)
    | converted hperforms => exact absurd hperforms (by simp [hdone])
    | started _ hcfg => rw [hcfg, getLsbD_setBit, if_neg fun h => hne h.1.symm]; rfl
    | reset hi => exact absurd hi hreset

/-- Settles O17, over what can become of AIF. -/
theorem alarmFlagStateMachine : Obligations.AlarmFlagStateMachine := by
  intro i s t n hn h
  refine ⟨fun hperforms hvalid => ?_, fun b hwrite hoffset => ?_, fun htime hwrite hreset => ?_⟩
  · obtain ⟨f, k, rfl⟩ := exec_of_performs hperforms h
    have hs := State.calValid_iff.mp hvalid
    by_cases hsec : s.reg 0 = 0x59
    · rw [decide_eq_true hsec, Bool.true_and]
      exact (State.endsInComparator_of_minute (s := { s with af := f, freeCount := k }) hsec
        (State.reachedInDomain_of_calValid hvalid)).flag hn
    · rw [decide_eq_false hsec, Bool.false_and, Bool.or_false]
      obtain ⟨hbcd, -, hlt⟩ := bcdIn_iff.mp hs.sec
      have hne : bcd2dec (s.reg 0) ≠ 59 := mt (bcd2dec_eq_iff hbcd (by decide)).mp hsec
      have hinc := State.stage_second_of_lt (s := { s with af := f, freeCount := k }) hbcd
        (lt_of_le_of_ne (Nat.le_of_lt_succ hlt) hne)
      change (State.reg (State.stage _ 0) 30).getLsbD n = _
      rw [hinc, State.reg_setReg, if_neg (by decide)]; rfl
  · obtain rfl : t = s.busWrite b := by rw [run_of_exec h, isWrite_iff.mp hwrite]; rfl
    have haif : (s.busWrite b).reg 30 = aifGuard (s.reg 30) b := by rw [State.busWrite_reg, hoffset]; rfl
    rw [haif, getLsbD_aifGuard _ _ n (by omega), if_pos hn]
  · obtain hkept | ⟨hoffset, b, hw, -⟩ | ⟨hperforms, -⟩ | hi := (regEffect_of_exec h).aif
    · rw [hkept]
    · exact absurd hoffset (hwrite b hw)
    · exact absurd hperforms (by simp [htime])
    · exact absurd hi hreset

end Sys2Proof.Machine

/-! ### Who writes which register, clause by clause -/

namespace Sys2Proof.Machine

section Writers

variable {i : Instr} {s t : State}

/-- Executed in `s`, `i` is a BUS_WRITE at offset `a`. -/
def State.writtenBy (s : State) (i : Instr) (a : Nat) : Prop := s.offset.toNat = a ∧ ∃ b, i.isWrite b = true

/-- Which operation a changed register belongs to. -/
theorem State.RegEffect.changed (h : s.RegEffect i t) (hreset : i ≠ .reset) {a : Nat} (hne : t.reg a ≠ s.reg a) :
    (s.writtenBy i a ∧ a ≠ 26 ∧ a ≠ 27 ∧ a ≤ 30) ∨ (s.performs i .timeInc = true ∧ (a ≤ 7 ∨ a = 30))
      ∨ (s.performs i .convDone = true ∧ (a = 26 ∨ a = 27 ∨ a = 28)) ∨ a = 28 := by
  cases h with
  | kept hreg => exact absurd (hreg a) hne
  | written b hwrite hreg =>
    rw [hreg] at hne
    have hoffset : a = s.offset.toNat := by by_contra hoffset; exact hne (if_neg hoffset)
    rw [if_pos hoffset] at hne
    have hplain : ¬ (a = 26 ∨ a = 27 ∨ 31 ≤ a) := fun h => hne (s.writeValue_of_ignored h b)
    exact .inl ⟨⟨hoffset.symm, b, hwrite⟩, by omega, by omega, by omega⟩
  | released _ _ _ hreg => exact .inr (.inr (.inr (by by_contra h28; exact hne ((hreg a).trans (if_neg h28)))))
  | incremented hperforms hreg =>
    refine .inr (.inl ⟨hperforms, ?_⟩)
    by_contra hother
    exact hne (hreg a (by omega) (by omega))
  | converted hperforms hreg =>
    refine .inr (.inr (.inl ⟨hperforms, ?_⟩))
    by_contra hother
    exact hne ((hreg a (by omega) (by omega)).trans (if_neg (by omega)))
  | started _ _ hreg => exact .inr (.inr (.inr (by by_contra h28; exact hne ((hreg a).trans (if_neg h28)))))
  | reset hi => exact absurd hi hreset

/-- DED and the unnamed bits of CFG change by a write at 28 alone. -/
theorem State.CfgEffect.changed_other (h : s.CfgEffect i t) (hreset : i ≠ .reset) {j : Nat} (hconv : j ≠ s.conf.convBit.val)
    (hrdy : j ≠ s.conf.rdyBit.val) (hne : (t.reg 28).getLsbD j ≠ (s.reg 28).getLsbD j) : s.writtenBy i 28 := by
  cases h with
  | kept hcfg => exact absurd (by rw [hcfg]) hne
  | written b hwrite hoffset => exact ⟨by rw [hoffset]; rfl, b, hwrite⟩
  | released _ _ _ hcfg => exact absurd (by rw [hcfg, getLsbD_setBit, if_neg fun h => hrdy h.1]) hne
  | converted _ hcfg => exact absurd (by rw [hcfg, getLsbD_setBit, if_neg fun h => hrdy h.1]) hne
  | started _ hcfg => exact absurd (by rw [hcfg, getLsbD_setBit, if_neg fun h => hconv h.1]) hne
  | reset hi => exact absurd hi hreset

/-- CONV rises by a write at 28 alone, and falls by such a write or by CONV_START. -/
theorem State.CfgEffect.changed_conv (h : s.CfgEffect i t) (hreset : i ≠ .reset) (hwf : s.conf.wf = true) :
    (t.reg 28).getLsbD s.conf.convBit = s.conv ∨ s.writtenBy i 28
      ∨ (s.performs i .convStart = true ∧ (t.reg 28).getLsbD s.conf.convBit = false) := by
  obtain ⟨-, -, hne⟩ := Config.wf_iff.mp hwf
  cases h with
  | kept hcfg => exact .inl (by rw [hcfg, State.conv])
  | written b hwrite hoffset => exact .inr (.inl ⟨by rw [hoffset]; rfl, b, hwrite⟩)
  | released _ _ _ hcfg => exact .inl (by rw [hcfg, getLsbD_setBit, if_neg fun h => hne h.1, State.conv])
  | converted _ hcfg => exact .inl (by rw [hcfg, getLsbD_setBit, if_neg fun h => hne h.1, State.conv])
  | started hperforms hcfg =>
    exact .inr (.inr ⟨hperforms, by rw [hcfg, getLsbD_setBit, if_pos ⟨rfl, s.conf.convBit.isLt⟩]⟩)
  | reset hi => exact absurd hi hreset

/-- RDY rises by ACT_CONV_DONE alone, and falls by a write at 28 or by a read of 27 with the record set. -/
theorem State.CfgEffect.changed_rdy (h : s.CfgEffect i t) (hreset : i ≠ .reset) (hwf : s.conf.wf = true) :
    (t.reg 28).getLsbD s.conf.rdyBit = s.rdy
      ∨ (s.performs i .convDone = true ∧ (t.reg 28).getLsbD s.conf.rdyBit = true)
      ∨ ((s.writtenBy i 28 ∨ (i.isRead = true ∧ s.offset = 27 ∧ s.highRead = true))
        ∧ (s.rdy = false → (t.reg 28).getLsbD s.conf.rdyBit = false)) := by
  obtain ⟨-, -, hne⟩ := Config.wf_iff.mp hwf
  cases h with
  | kept hcfg => exact .inl (by rw [hcfg, State.rdy])
  | written b hwrite hoffset hcfg =>
    refine .inr (.inr ⟨.inl ⟨by rw [hoffset]; rfl, b, hwrite⟩, fun hclear => ?_⟩)
    rw [State.rdy] at hclear
    rw [hcfg, getLsbD_cfgGuard, if_pos rfl, hclear, Bool.false_and]
  | released hread hoffset hrecord hcfg =>
    exact .inr (.inr ⟨.inr ⟨hread, hoffset, hrecord⟩, fun _ => by
      rw [hcfg, getLsbD_setBit, if_pos ⟨rfl, s.conf.rdyBit.isLt⟩]⟩)
  | converted hperforms hcfg =>
    exact .inr (.inl ⟨hperforms, by rw [hcfg, getLsbD_setBit, if_pos ⟨rfl, s.conf.rdyBit.isLt⟩]⟩)
  | started _ hcfg => exact .inl (by rw [hcfg, getLsbD_setBit, if_neg fun h => hne h.1.symm, State.rdy])
  | reset hi => exact absurd hi hreset

/-- A changed bit of AIF: a write at 30 clears flags and stores bits 7 and 6, an ACT_TIME_INC adds flags. -/
theorem State.RegEffect.changed_aif (h : s.RegEffect i t) (hreset : i ≠ .reset) {j : Nat} (hj : j < 8)
    (hne : (t.reg 30).getLsbD j ≠ (s.reg 30).getLsbD j) :
    (s.writtenBy i 30 ∧ (j < 6 → (s.reg 30).getLsbD j = true))
      ∨ (s.performs i .timeInc = true ∧ j < 6 ∧ (s.reg 30).getLsbD j = false) := by
  obtain hkept | ⟨hoffset, b, hwrite, haif⟩ | ⟨hperforms, hlatch⟩ | hi := h.aif
  · exact absurd (by rw [hkept]) hne
  · refine .inl ⟨⟨by rw [hoffset]; rfl, b, hwrite⟩, fun h6 => ?_⟩
    rw [haif, getLsbD_aifGuard _ _ j hj, if_pos h6] at hne
    by_contra hclear
    rw [Bool.not_eq_true] at hclear
    exact hne (by rw [hclear, Bool.false_and])
  · obtain ⟨hup, hhigh⟩ := hlatch.getLsbD hj
    refine .inr ⟨hperforms, ?_, ?_⟩
    · by_contra h6
      exact hne (hhigh (by omega))
    · by_contra hset
      rw [Bool.not_eq_false] at hset
      exact hne ((hup hset).trans hset.symm)
  · exact absurd hi hreset

/-- Settles O40: each clause is what its part of the register file can become. -/
theorem registerWriters : Obligations.RegisterWriters := by
  intro i s t h hreset written
  have heffect := regEffect_of_exec h
  refine ⟨fun a hne => ?_, fun j _ hconv hrdy hne => heffect.cfg.changed_other hreset hconv hrdy hne,
    fun hwf => ?_, fun j h6 hj hne => ?_, fun j hj => ⟨fun hclear hset => ?_, fun hset hclear => ?_⟩⟩
  · obtain ⟨hw, h26, h27, h30⟩ | ⟨hperforms, ha⟩ | ⟨hperforms, ha⟩ | ha := heffect.changed hreset hne
    · exact ⟨fun _ => .inr hw, fun _ => hw, by omega, h30⟩
    · exact ⟨fun _ => .inl hperforms, by omega, by omega, by omega⟩
    · exact ⟨by omega, by omega, fun _ => hperforms, by omega⟩
    · exact ⟨by omega, by omega, by omega, by omega⟩
  · rw [State.conv_of_exec h, State.rdy_of_exec h]
    have hconv := heffect.cfg.changed_conv hreset hwf
    have hrdy := heffect.cfg.changed_rdy hreset hwf
    refine ⟨fun h0 h1 => ?_, fun h0 h1 => ?_, fun h0 h1 => ?_, fun h0 h1 => ?_⟩
    · obtain hkept | hw | ⟨-, hfall⟩ := hconv
      · rw [h1, h0] at hkept; cases hkept
      · exact hw
      · rw [h1] at hfall; cases hfall
    · obtain hkept | hw | ⟨hperforms, -⟩ := hconv
      · rw [h1, h0] at hkept; cases hkept
      · exact .inr hw
      · exact .inl hperforms
    · obtain hkept | ⟨hperforms, -⟩ | ⟨-, hfall⟩ := hrdy
      · rw [h1, h0] at hkept; cases hkept
      · exact hperforms
      · rw [h1] at hfall; cases hfall h0
    · obtain hkept | ⟨-, hrise⟩ | ⟨hw, -⟩ := hrdy
      · rw [h1, h0] at hkept; cases hkept
      · rw [h1] at hrise; cases hrise
      · exact hw
  · obtain ⟨hw, -⟩ | ⟨-, hlt, -⟩ := heffect.changed_aif hreset hj hne
    · exact hw
    · omega
  · obtain ⟨-, hset'⟩ | ⟨hperforms, -⟩ := heffect.changed_aif hreset (j := j) (by omega) (by simp [hclear, hset])
    · exact absurd (hset' hj) (by simp [hclear])
    · exact hperforms
  · obtain ⟨hw, -⟩ | ⟨-, -, hclear'⟩ := heffect.changed_aif hreset (j := j) (by omega) (by simp [hclear, hset])
    · exact hw
    · exact absurd hset (by simp [hclear'])

end Writers

end Sys2Proof.Machine

/-! ### The invariant of every step (10_state.md R18 to R20, 41_calendar.md R98) -/

namespace Sys2Proof.Machine

theorem State.inv_iff {s : State} :
    s.inv = true ↔ s.mem.wf = true ∧ s.phase < s.conf.ticks ∧ s.conf.wf = true
      ∧ (s.marked = true ∨ s.leapCurrent = true) ∧ (s.conf.diagEn = true ∨ s.af.getLsbD 1 = false) := by
  simp only [State.inv, Bool.and_eq_true, Bool.or_eq_true, decide_eq_true_eq, Bool.not_eq_true', and_assoc]

/-! #### `LEAP` agrees with a valid year, unless the run is marked -/

/-- The invariant's clause on `LEAP` (R20, R98). -/
def State.LeapKept (s : State) : Prop := s.marked = true ∨ s.leapCurrent = true

theorem State.LeapKept.congr {s t : State} (h : s.LeapKept) (h6 : t.reg 6 = s.reg 6) (h7 : t.reg 7 = s.reg 7)
    (hleap : t.leap = s.leap) (hmark : t.marked = s.marked) : t.LeapKept := by
  rwa [State.LeapKept, State.leapCurrent, h6, h7, hleap, hmark]

theorem State.leapCurrent_checkLeapYear (s : State) : s.checkLeapYear.leapCurrent = true := by
  rw [State.leapCurrent, State.checkLeapYear_reg, State.checkLeapYear_reg, State.checkLeapYear_eq]
  cases h : (isBcd (s.reg 7) && isBcd (s.reg 6)) <;> simp

theorem State.leapKept_checkLeapYear (s : State) : s.checkLeapYear.LeapKept := .inr s.leapCurrent_checkLeapYear

theorem State.LeapKept.checkAlarms {s : State} (h : s.LeapKept) : s.checkAlarms.LeapKept :=
  h.congr (by rw [State.checkAlarms_reg, if_neg (by decide)]) (by rw [State.checkAlarms_reg, if_neg (by decide)]) rfl rfl

theorem State.LeapKept.setReg {s : State} (h : s.LeapKept) {i : Nat} (h6 : i ≠ 6) (h7 : i ≠ 7) (v : Byte) :
    (s.setReg i v).LeapKept :=
  h.congr (by rw [State.reg_setReg, if_neg h6.symm]) (by rw [State.reg_setReg, if_neg h7.symm]) rfl rfl

/-- The stages below the year leave the year and `LEAP`; from the year's on the indicator is recomputed at the end (R94). -/
theorem State.leapKept_stage {s : State} {j : Nat} (hj : j ≤ 8) (h : j ≤ 5 → s.LeapKept) : (s.stage j).LeapKept := by
  induction hk : 8 - j generalizing s j with
  | zero =>
    obtain rfl : j = 8 := by omega
    exact s.leapKept_checkLeapYear.checkAlarms
  | succ k ih =>
    rw [State.stage_eq s (by omega)]
    split_ifs
    · exact ih (by omega) (fun h5 => (h (by omega)).setReg (by omega) (by omega) _) (by omega)
    · unfold State.stageEnd
      split_ifs with h0 h5
      · exact (h (by omega)).setReg (by omega) (by omega) _
      · exact ((h h5).setReg (by omega) (by omega) _).checkAlarms
      · exact (State.leapKept_checkLeapYear _).checkAlarms
    · exact .inl (s.unspecifiedFrom_marked j)

theorem State.busWrite_marked (s : State) (b : Byte) : (s.busWrite b).marked = s.marked := by
  obtain ⟨m, l, n, heq⟩ := s.busWrite_frame b
  rw [heq]

/-- A write to the year recomputes `LEAP`, any other leaves it and the year (44_bus_port.md R138). -/
theorem State.LeapKept.busWrite {s : State} (h : s.LeapKept) (b : Byte) : (s.busWrite b).LeapKept := by
  by_cases hyear : 6 ≤ s.offset.toNat ∧ s.offset.toNat ≤ 7
  · rw [State.busWrite_of_year b hyear.1 hyear.2]
    exact .inr (s.storeAtOffset b).leapCurrent_checkLeapYear
  · exact h.congr (by rw [State.busWrite_reg, if_neg (by omega)]) (by rw [State.busWrite_reg, if_neg (by omega)])
      (State.busWrite_leap hyear b) (s.busWrite_marked b)

theorem State.LeapKept.perform {s : State} (h : s.LeapKept) (a : Action) : (s.perform a).LeapKept := by
  cases a with
  | timeInc => exact State.leapKept_stage (j := 0) (by decide) fun _ => h
  | convDone =>
    exact h.congr (s.convDone_reg 6) (s.convDone_reg 7) (by rw [State.perform, State.convDone_eq])
      (by rw [State.perform, State.convDone_eq])
  | convStart =>
    simp only [State.perform, State.convStart]
    split_ifs
    · exact h.setReg (i := 28) (by decide) (by decide) _
    · exact h
  | tempAssert => rw [State.perform, State.actTempAssert_eq]; exact h
  | _ => exact h

/-! #### The canonical form of the register file -/

theorem State.wf_busWrite {s : State} (h : s.mem.wf = true) (b : Byte) : (s.busWrite b).mem.wf = true := by
  have hstore : s.offset.toNat ≤ 30 → (s.storeAtOffset b).mem.wf = true := fun hi => State.wf_setReg h hi b
  simp only [State.busWrite, State.finishWrite_mem]
  split_ifs
  · exact hstore (by omega)
  · rw [State.checkLeapYear_mem]; exact hstore (by omega)
  · exact hstore (by omega)
  · exact h
  · exact State.wf_setReg h (by decide) _
  · exact hstore (by omega)
  · exact State.wf_setReg h (by decide) _
  · exact h

theorem State.wf_busRead {s : State} (h : s.mem.wf = true) : s.busRead.mem.wf = true := (s.busRead_spec.2.2.2 h).1

theorem State.wf_perform {s : State} (h : s.mem.wf = true) (a : Action) : (s.perform a).mem.wf = true := by
  cases a with
  | timeInc => exact (State.calFrame_timeInc s).2.2 h
  | convDone =>
    rw [State.perform, State.convDone_eq]
    exact Memory.wf_write (Memory.wf_write (Memory.wf_write h (by decide) _) (by decide) _) (by decide) _
  | convStart =>
    simp only [State.perform, State.convStart]
    split_ifs
    · exact State.wf_setReg h (by decide) _
    · exact h
  | tempAssert => rw [State.perform, State.actTempAssert_eq]; exact h
  | _ => exact h

/-! #### The step -/

theorem State.leapKept_reset (s : State) : s.resetBlock.LeapKept := State.leapKept_checkLeapYear _

theorem State.tick_phase_lt {s : State} (h : s.phase < s.conf.ticks) : s.tick.phase < s.conf.ticks := by
  rw [State.tick_eq]
  change (if s.phase + 1 = s.conf.ticks then 0 else s.phase + 1) < s.conf.ticks
  split_ifs <;> omega

/-- Without the sink no phase number requests the diagnostic flag (40_scheduler.md R65). -/
theorem getLsbD_phaseMask_diag {c : Config} (h : c.diagEn = false) (k : Nat) : (phaseMask c k).getLsbD 1 = false := by
  unfold phaseMask
  split
  case h_2 => rw [h]; rfl
  all_goals rfl

/-- Every operation keeps the invariant. -/
theorem inv_of_exec {i : Instr} {s t : State} (hinv : s.inv = true) (h : exec i s = .next t) : t.inv = true := by
  obtain ⟨hwf, hphase, hconf, hleap, hdiag⟩ := State.inv_iff.mp hinv
  rw [State.inv_iff]
  cases effect_of_exec h with
  | nothing | setoff => exact ⟨hwf, hphase, hconf, hleap, hdiag⟩
  | tick =>
    have hlt := State.tick_phase_lt hphase
    rw [State.tick_eq] at hlt ⊢
    refine ⟨hwf, hlt, hconf, hleap, ?_⟩
    cases hd : s.conf.diagEn with
    | true => exact .inl rfl
    | false =>
      have haf := hdiag.resolve_left (by simp [hd])
      exact .inr (by rw [BitVec.getLsbD_or, haf, getLsbD_phaseMask_diag hd]; rfl)
  | adc =>
    refine ⟨hwf, hphase, hconf, hleap, ?_⟩
    rw [State.setFlag_af, getLsbD_setBit, if_neg (by decide)]
    exact hdiag
  | write b =>
    have hwf' := State.wf_busWrite hwf b
    have hleap' := State.LeapKept.busWrite hleap b
    obtain ⟨m, l, n, heq⟩ := s.busWrite_frame b
    rw [heq] at hwf' hleap' ⊢
    exact ⟨hwf', hphase, hconf, hleap', hdiag⟩
  | read =>
    have hwf' := State.wf_busRead hwf
    have h67 : s.busRead.LeapKept := by
      obtain ⟨-, -, hreg, -⟩ := s.busRead_spec
      obtain ⟨m, r, v, heq⟩ := s.busRead_frame
      exact State.LeapKept.congr hleap (hreg 6 (by decide)) (hreg 7 (by decide)) (by rw [heq]) (by rw [heq])
    obtain ⟨m, r, v, heq⟩ := s.busRead_frame
    rw [heq] at hwf' h67 ⊢
    exact ⟨hwf', hphase, hconf, h67, hdiag⟩
  | reset =>
    have hleap' := s.leapKept_reset
    rw [State.resetBlock_eq] at hleap' ⊢
    have hpos : 0 < s.conf.ticks := by obtain hN | hN := ticks_eq s.conf <;> omega
    exact ⟨rfl, hpos, hconf, hleap', .inr BitVec.getLsbD_zero⟩
  | action a f n _ hsubset =>
    rw [State.perform_phase, State.perform_conf, State.perform_af]
    refine ⟨State.wf_perform (s := { s with af := f, freeCount := n }) hwf a, hphase, hconf,
      State.LeapKept.perform (s := { s with af := f, freeCount := n }) hleap a, hdiag.imp_right fun hclear => ?_⟩
    by_contra hset
    rw [Bool.not_eq_false] at hset
    exact Bool.false_ne_true (hclear.symm.trans (hsubset 1 hset))

/-- Settles O53: a step is an operation, and the ports are no part of the invariant. -/
theorem everyStepKeepsTheInvariant : Obligations.EveryStepKeepsTheInvariant := by
  intro s t hinv hstep
  have hbegin : s.begin.inv = true := hinv
  exact inv_of_exec hbegin hstep

end Sys2Proof.Machine

/-! ### SECOND: one cycle of ticks and foreground steps (30_encoding.md R63, 40_scheduler.md R74) -/

namespace Sys2Proof.Machine

/-! #### What the actions of the cycle never look at -/

/-- `s` with the phase, the action flags, the ports and the events of `d`. -/
def State.dress (s d : State) : State :=
  { s with
    phase := d.phase, af := d.af, adcRaw := d.adcRaw, dout := d.dout, status := d.status, adcStart := d.adcStart,
    diagReq := d.diagReq, inputs := d.inputs }

section Dress

variable (s d : State)

/-- The block's state has no ports and no events, so a dress of its own phase and flags does not show in it. -/
theorem State.block_dress (hphase : d.phase = s.phase) (haf : d.af = s.af) : (s.dress d).block = s.block := by
  simp only [State.block, State.dress, hphase, haf]

theorem State.dress_checkLeapYear : (s.dress d).checkLeapYear = s.checkLeapYear.dress d := by
  rw [State.checkLeapYear_eq, State.checkLeapYear_eq]; rfl

theorem State.dress_freeLastFields (k : Nat) : (s.dress d).freeLastFields k = (s.freeLastFields k).dress d := by
  induction k generalizing s with
  | zero => rfl
  | succ k ih => exact ih (s.setReg (7 - k) (Config.freeByte (s.freeCount + k)))

theorem State.dress_unspecifiedFrom (j : Nat) : (s.dress d).unspecifiedFrom j = (s.unspecifiedFrom j).dress d := by
  simp only [State.unspecifiedFrom, State.dress_freeLastFields]; rfl

theorem State.dress_stageEnd (j : Nat) : (s.dress d).stageEnd j = (s.stageEnd j).dress d := by
  unfold State.stageEnd
  split_ifs
  · rfl
  · rfl
  · rw [State.dress_checkLeapYear]; rfl

/-- The carry chain neither reads nor writes them. -/
theorem State.dress_stage {j : Nat} (hj : j ≤ 8) : (s.dress d).stage j = (s.stage j).dress d := by
  induction hk : 8 - j generalizing s j with
  | zero =>
    obtain rfl : j = 8 := by omega
    exact s.dress_stageEnd d 8
  | succ k ih =>
    have hok : (s.dress d).stageOk j = s.stageOk j := rfl
    have hstep : (s.dress d).stageStep j = s.stageStep j := rfl
    rw [State.stage_eq _ (by omega), State.stage_eq s (by omega), hok, hstep]
    split_ifs
    · exact ih (s.setReg j (s.stageStep j).1) (by omega) (by omega)
    · exact (s.setReg j (s.stageStep j).1).dress_stageEnd d j
    · exact s.dress_unspecifiedFrom d j

end Dress

/-! #### The actions of the cycle -/

/-- The action that the tick with phase number `k` requests (R56, R58). -/
def cycleAction (c : Config) (k : Nat) : Option Action :=
  match k with
  | 2 => some .alarmInt
  | 4 => if c.diagEn then some .diag else none
  | 6 => some .alarmRst
  | 8 => some .toggle
  | 10 => some .tempAssert
  | 12 => some .timeInc
  | 14 => some .tempDeassert
  | 16 => some .toggle
  | _ => none

theorem phaseMask_eq_cycleAction (c : Config) (k : Nat) :
    phaseMask c k = (cycleAction c k).elim 0x00 fun a => 1#8 <<< a.index := by
  unfold phaseMask
  split
  case h_2 => cases hd : c.diagEn <;> simp [cycleAction, hd, Action.index]
  case h_9 => rw [cycleAction, Option.elim_none] <;> assumption
  all_goals rfl

/-- The conversion's two actions are no part of the cycle. -/
theorem ne_conversion_of_cycleAction {c : Config} {k : Nat} {a : Action} (h : cycleAction c k = some a) :
    a ≠ .convDone ∧ a ≠ .convStart := by
  unfold cycleAction at h
  split at h
  case h_2 => cases hd : c.diagEn <;> simp [hd] at h; subst h; decide
  all_goals cases h
  all_goals decide

/-- An action of the cycle is the same on a dressed state, but for the pulse of ACT_DIAG. -/
theorem State.dress_perform (s d : State) {a : Action} (hdone : a ≠ .convDone) (hstart : a ≠ .convStart) :
    ∃ e : State, e.phase = d.phase ∧ e.af = d.af ∧ e.inputs = d.inputs ∧ (s.dress d).perform a = (s.perform a).dress e := by
  cases a with
  | convDone => exact absurd rfl hdone
  | convStart => exact absurd rfl hstart
  | diag => exact ⟨{ d with diagReq := true }, rfl, rfl, rfl, rfl⟩
  | timeInc => exact ⟨d, rfl, rfl, rfl, s.dress_stage d (j := 0) (by decide)⟩
  | tempAssert => exact ⟨d, rfl, rfl, rfl, by simp only [State.perform, State.actTempAssert_eq]; rfl⟩
  | _ => exact ⟨d, rfl, rfl, rfl, rfl⟩

theorem State.perform_conv {s : State} {a : Action} (hdone : a ≠ .convDone) (hstart : a ≠ .convStart) :
    (s.perform a).conv = s.conv := by
  have hcfg : (s.perform a).reg 28 = s.reg 28 := by
    cases a with
    | convDone => exact absurd rfl hdone
    | convStart => exact absurd rfl hstart
    | timeInc => exact (State.calFrame_timeInc s).2.1 28 (by decide) (by decide)
    | tempAssert => rw [State.perform, State.actTempAssert_eq]; rfl
    | _ => rfl
  rw [State.conv, hcfg, State.perform_conf, State.conv]

/-! #### A pair of TICK and FG -/

theorem State.isPending_eq (s : State) (b : Action) :
    s.isPending b = if b = .convStart then s.conv else s.af.getLsbD b.index := by cases b <;> rfl

theorem getLsbD_one_shift : ∀ i < 8, ∀ j < 8, (1#8 <<< i).getLsbD j = decide (j = i) := by decide

theorem Action.index_lt {a : Action} (h : a ≠ .convStart) : a.index < 8 := by
  revert h; cases a <;> decide

/-- With one flag set and no conversion requested, FG_STEP performs that flag's action (R70). -/
theorem State.fgStep_of_single {s : State} {a : Action} (hord : s.conf.fgOrder = .priority) (ha : a ≠ .convStart)
    (haf : s.af = 1#8 <<< a.index) (hconv : s.conv = false) : s.fgStep = ({ s with af := 0 } : State).perform a := by
  have hpending : ∀ b, s.isPending b = true → a = b := fun b hb => by
    rw [State.isPending_eq, hconv, haf] at hb
    split_ifs at hb with hb'
    rw [getLsbD_one_shift _ (Action.index_lt ha) _ (Action.index_lt hb'), decide_eq_true_eq] at hb
    exact Action.index_injective hb.symm
  have hself : s.isPending a = true := by
    rw [State.isPending_eq, if_neg ha, haf, getLsbD_one_shift _ (Action.index_lt ha) _ (Action.index_lt ha)]
    exact decide_eq_true rfl
  have hspend : s.spendChoice = s := by unfold State.spendChoice; rw [hord]
  have hclear : s.af &&& ~~~(1#8 <<< a.index) = 0 := by rw [haf]; exact BitVec.and_not_self _
  rw [State.fgStep_of_choose (State.choose_of_lowest hord hself fun b hb => (congrArg Action.index (hpending b hb)).le),
    hspend, State.clearFlag_eq_mask, hclear]

/-- The tick of a pair: the flag of its phase number alone is set. -/
theorem State.dress_tick {y d : State} {e : Input} {rest : List Input} (haf : d.af = 0) (hinputs : d.inputs = e :: rest) :
    ∃ d' : State, (y.dress d).begin.tick = y.dress d' ∧ d'.phase = nextPhase y.conf d.phase
      ∧ d'.af = phaseMask y.conf ((d.phase + 1) * (16 / y.conf.ticks)) ∧ d'.inputs = rest := by
  have hbegin := State.begin_of_cons (s := y.dress d) hinputs
  refine ⟨(y.dress d).begin.tick, by rw [State.tick_eq]; rfl, by rw [State.tick_eq]; rfl, ?_, ?_⟩
  · rw [State.tick_eq, hbegin]
    change d.af ||| _ = _
    rw [haf]
    exact BitVec.zero_or
  · rw [State.tick_eq, hbegin]

/-- The foreground step of a pair: the requested action is performed, if there is one, and `AF` is empty again. -/
theorem State.dress_fgStep {y d : State} {e : Input} {rest : List Input} {o : Option Action} (hconv : y.conv = false)
    (hord : y.conf.fgOrder = .priority) (ho : ∀ a, o = some a → a ≠ .convDone ∧ a ≠ .convStart)
    (haf : d.af = o.elim 0x00 fun a => 1#8 <<< a.index) (hinputs : d.inputs = e :: rest) :
    ∃ d' : State, (y.dress d).begin.fgStep = (o.toList.foldl State.perform y).dress d' ∧ d'.phase = d.phase ∧ d'.af = 0
      ∧ d'.inputs = rest := by
  have hbegin : (y.dress d).begin.inputs = rest := by rw [State.begin_of_cons (s := y.dress d) hinputs]
  cases o with
  | none =>
    refine ⟨(y.dress d).begin, ?_, rfl, haf, hbegin⟩
    rw [State.fgStep, State.choose_of_pending_nil (State.pending_eq_nil (s := (y.dress d).begin) haf hconv)]
    rfl
  | some a =>
    obtain ⟨hdone, hstart⟩ := ho a rfl
    have hfg := State.fgStep_of_single (s := (y.dress d).begin) hord hstart haf hconv
    obtain ⟨d', hphase, hflag, hrest, heq⟩ := y.dress_perform { (y.dress d).begin with af := 0 } hdone hstart
    exact ⟨d', hfg.trans heq, hphase, hflag, hrest.trans hbegin⟩

/-- One pair: the action of its phase number is performed on the block, and `AF` is empty again. -/
theorem run_pair (n : Nat) {y d : State} {rest : List Input} (haf : d.af = 0) (hconv : y.conv = false)
    (hord : y.conf.fgOrder = .priority) (hinputs : d.inputs = eventInput .tick :: eventInput .fg :: rest) :
    ∃ e : State, e.inputs = rest ∧ e.af = 0 ∧ e.phase = nextPhase y.conf d.phase
      ∧ core.run (n + 2) (y.dress d)
        = core.run n (((cycleAction y.conf ((d.phase + 1) * (16 / y.conf.ticks))).toList.foldl State.perform y).dress e) := by
  obtain ⟨e, htick, hphase, hflag, hrest⟩ := State.dress_tick (y := y) haf hinputs
  rw [phaseMask_eq_cycleAction] at hflag
  obtain ⟨e', hfg, hphase', hflag', hrest'⟩ := State.dress_fgStep hconv hord (fun _ => ne_conversion_of_cycleAction) hflag hrest
  have hstep : step (y.dress d) = .next (y.dress e) := by rw [← htick]; exact step_of_event (i := .tick) rfl hinputs
  have hstep' := step_of_event (s := y.dress e) (i := .fg) rfl hrest
  rw [Instr.op, Op.run, hfg] at hstep'
  exact ⟨e', hrest', hflag', hphase'.trans hphase, (run_succ hstep (n + 1)).trans (run_succ hstep' n)⟩

/-! #### The cycle -/

/-- The actions of `k` pairs from phase `p`, in order. -/
def cycleActions (c : Config) : Nat → Nat → List Action
  | _, 0 => []
  | p, k + 1 => (cycleAction c ((p + 1) * (16 / c.ticks))).toList ++ cycleActions c (nextPhase c p) k

theorem foldl_perform_conf (l : List Action) (s : State) : (l.foldl State.perform s).conf = s.conf := by
  induction l generalizing s with
  | nil => rfl
  | cons a l ih => exact (ih (s.perform a)).trans (s.perform_conf a)

theorem foldl_perform_phase_af (l : List Action) (s : State) :
    (l.foldl State.perform s).phase = s.phase ∧ (l.foldl State.perform s).af = s.af := by
  induction l generalizing s with
  | nil => exact ⟨rfl, rfl⟩
  | cons a l ih => exact ⟨(ih _).1.trans (s.perform_phase a), (ih _).2.trans (s.perform_af a)⟩

/-- The cycle's actions leave a conversion request as it is. -/
theorem foldl_cycleAction_conv (c : Config) (k : Nat) (s : State) :
    ((cycleAction c k).toList.foldl State.perform s).conv = s.conv := by
  cases h : cycleAction c k with
  | none => rfl
  | some a => exact State.perform_conv (ne_conversion_of_cycleAction h).1 (ne_conversion_of_cycleAction h).2

theorem run_pairs (k : Nat) {y d : State} {rest : List Input} (haf : d.af = 0) (hconv : y.conv = false)
    (hord : y.conf.fgOrder = .priority)
    (hinputs : d.inputs = (List.replicate k [eventInput .tick, eventInput .fg]).flatten ++ rest) :
    ∃ e : State, core.run (2 * k) (y.dress d) = .next (((cycleActions y.conf d.phase k).foldl State.perform y).dress e)
      ∧ e.inputs = rest ∧ e.af = 0 ∧ e.phase = (nextPhase y.conf)^[k] d.phase := by
  induction k generalizing y d with
  | zero => exact ⟨d, rfl, hinputs, haf, rfl⟩
  | succ k ih =>
    rw [List.replicate_succ, List.flatten_cons] at hinputs
    obtain ⟨e, hrest, hflag, hphase, hrun⟩ := run_pair (2 * k) haf hconv hord hinputs
    have hconf := foldl_perform_conf (cycleAction y.conf ((d.phase + 1) * (16 / y.conf.ticks))).toList y
    obtain ⟨e', hrun', hrest', hflag', hphase'⟩ := ih hflag ((foldl_cycleAction_conv _ _ y).trans hconv)
      (by rw [hconf]; exact hord) hrest
    rw [hconf, hphase] at hrun' hphase'
    refine ⟨e', hrun.trans ?_, hrest', hflag', hphase'.trans (Function.iterate_succ_apply _ _ _).symm⟩
    rw [hrun', cycleActions, List.foldl_append]

theorem execAll_actions (l : List Action) (s : State) :
    execAll (l.map Action.instr) s = .next (l.foldl State.perform s) := by
  induction l generalizing s with
  | nil => rfl
  | cons a l ih => exact (execAll_cons (exec_actionInstr a s) _).trans (ih _)

/-- The actions of one cycle in the order of R56. -/
theorem cycleActions_cycle (c : Config) :
    (cycleActions c 0 c.ticks).map Action.instr =
      [.actAlarmInt] ++ (if c.diagEn then [.actDiag] else [])
        ++ [.actAlarmRst, .actToggle, .actTempAssert, .actTimeInc, .actTempDeassert, .actToggle] := by
  obtain hN | hN := ticks_eq c <;> cases hdiag : c.diagEn <;>
    simp [cycleActions, cycleAction, nextPhase, hN, hdiag, Action.instr]

/-- Settles O12: each pair performs the action of its phase number, and a cycle of phases names each action in its place. -/
theorem secondRunsTheCycleInOrder : Obligations.SecondRunsTheCycleInOrder := by
  intro s rest hphase haf hconv hord hinputs
  obtain ⟨e, hrun, hrest, hflag, hend⟩ := run_pairs s.conf.ticks (y := s) (d := s) haf hconv hord hinputs
  rw [hphase, iterate_nextPhase_cycle] at hend
  rw [hphase] at hrun
  obtain ⟨hphase', haf'⟩ := foldl_perform_phase_af (cycleActions s.conf 0 s.conf.ticks) s
  refine ⟨_, _, hrun, hrest, by rw [← cycleActions_cycle]; exact execAll_actions _ s, ?_⟩
  exact State.block_dress _ _ (hend.trans (hphase'.trans hphase).symm) (hflag.trans (haf'.trans haf).symm)

end Sys2Proof.Machine
